-- ==== Sys2Proof/Word.lean ====
section
/-! DEFINITION. The word types of the YC620 and the numbered things of its manual (00_scope, "Conventions"). -/

namespace Sys2Proof

/-- A lane of a word: 8 bits. -/
abbrev Byte := BitVec 8

/-- Half a word. -/
abbrev Half := BitVec 16

/-- A word of record memory: 32 bits. -/
abbrev Word := BitVec 32

/-- Yard time and every stamp taken from it: a 32-bit count of seconds (R193). -/
abbrev Time := BitVec 32

/-- A word address: 20 bits, counting words (R1). -/
abbrev WordAddr := BitVec 20

/-- A lane mask: bit `k` stands for lane `k` (R1). -/
abbrev Mask := BitVec 4

/-- Bus masters are numbered 0-7 (R1). -/
abbrev Initiator := Fin 8

/-- Bays are numbered 0-159. -/
abbrev BayNo := Fin 160

/-- Feeders are numbered 0-7. -/
abbrev FeederNo := Fin 8

/-- A radio address: 10 bits; 0 belongs to no radio. -/
abbrev RadioAddr := BitVec 10

/-- A reading's sequence, modulo 256 (R29). -/
abbrev Seq := BitVec 8

end Sys2Proof
end

