-- ==== Sys2Proof/Syntax.lean ====
section
/-! DEFINITION. The commands of the YC620: one constructor per row of spec/opcode_table.json. -/

namespace Sys2Proof

/-- The direction of a front-port request with what it carries (R1): a read its length, a write one
mask and one word per word of its length. -/
inductive Access where
  | read (length : Nat)
  | write (words : List (Mask × Word))
  deriving DecidableEq, Repr

/-- The number of words a request touches. -/
def Access.length : Access → Nat
  | .read n => n
  | .write ws => ws.length

/-- A front-port request (R1). -/
structure Request where
  initiator : Initiator
  addr : WordAddr
  lock : Bool
  access : Access
  deriving DecidableEq, Repr

/-- The three argument words of the setup area (R8). -/
inductive ArgName where
  | a
  | b
  | c
  deriving DecidableEq, Repr

/-- The commands. A front-port row carries what the initiator presents; a mailbox row carries the initiator that
writes its code to the command word (its arguments are the latched ones, R189); an event row carries the bay,
feeder or table place it happens to. -/
inductive Instr where
  -- front-port requests
  | plainRequest (r : Request)
  | inboxFrameWrite (i : Initiator) (addr : WordAddr) (words : List (Mask × Word))
  | bayRecordRead (i : Initiator) (addr : WordAddr) (length : Nat)
  | lockedBayRecordRead (i : Initiator) (addr : WordAddr) (length : Nat)
  | settingsWrite (i : Initiator) (addr : WordAddr) (lock : Bool) (words : List (Mask × Word))
  | argumentWrite (i : Initiator) (arg : ArgName) (value : Word)
  | consumerIndexWrite (i : Initiator) (value : Word)
  | commandWordZero (i : Initiator)
  -- command words
  | unknownCommand (i : Initiator) (code : Word)
  | setWindow (i : Initiator)
  | setTiming (i : Initiator)
  | run (i : Initiator)
  | halt (i : Initiator)
  | setTime (i : Initiator)
  | mapTag (i : Initiator)
  | unmapTag (i : Initiator)
  | setLoading (i : Initiator)
  | forceDefrost (i : Initiator)
  | cancelDefrost (i : Initiator)
  | setFeeder (i : Initiator)
  | assignFeeder (i : Initiator)
  | inject (i : Initiator)
  | clearCounters (i : Initiator)
  -- the memory port
  | memoryPortGrant
  | passThroughBurstComplete
  | recordBurstComplete
  | noticeBurstComplete
  | statusBurstComplete
  | resultWordComplete
  | fetchComplete
  -- events of the blocks
  | takeFrame
  | haltComplete
  | silenceExpiry (b : BayNo)
  | startWindowExpiry (b : BayNo)
  | maxDefrostExpiry (b : BayNo)
  | stopWindowExpiry (b : BayNo)
  | drainExpiry (b : BayNo)
  | doorTimerExpiry (b : BayNo)
  | restoreTimerExpiry (f : FeederNo)
  | reclaimExpiry (place : Fin 4)
  | lockHoldExpiry
  | yardTick
  -- pins
  | feederOkFall (f : FeederNo)
  | feederOkRise (f : FeederNo)
  | resetNFall
  | resetNRelease (memsize : BitVec 2)
  deriving DecidableEq, Repr

end Sys2Proof
end

