-- ==== Sys2Proof/WellFormed.lean ====
section
/-! DEFINITION. Which commands the bus can carry: the field ranges of R1 and the command table of R191. -/

namespace Sys2Proof

/-- The codes of the command table (R191). -/
def knownCode (code : Word) : Bool := 1 ≤ code.toNat && code.toNat ≤ 14

/-- A request has a length of 1 to 8 words (R1). -/
def Request.wellFormed (r : Request) : Bool := 1 ≤ r.access.length && r.access.length ≤ 8

/-- A command is well formed when its request's length is 1-8 (R1) and an unknown command's code is a command
(not 0, R188) that the table of R191 does not hold. -/
def Instr.wellFormed : Instr → Bool
  | .plainRequest r => r.wellFormed
  | .inboxFrameWrite _ _ ws => 1 ≤ ws.length && ws.length ≤ 8
  | .bayRecordRead _ _ n => 1 ≤ n && n ≤ 8
  | .lockedBayRecordRead _ _ n => 1 ≤ n && n ≤ 8
  | .settingsWrite _ _ _ ws => 1 ≤ ws.length && ws.length ≤ 8
  | .unknownCommand _ code => code ≠ 0 && !knownCode code
  | .argumentWrite _ _ _ | .consumerIndexWrite _ _ | .commandWordZero _ => true
  | .setWindow _ | .setTiming _ | .run _ | .halt _ | .setTime _ | .mapTag _ | .unmapTag _ => true
  | .setLoading _ | .forceDefrost _ | .cancelDefrost _ | .setFeeder _ | .assignFeeder _ => true
  | .inject _ | .clearCounters _ => true
  | .memoryPortGrant | .passThroughBurstComplete | .recordBurstComplete | .noticeBurstComplete => true
  | .statusBurstComplete | .resultWordComplete | .fetchComplete | .takeFrame | .haltComplete => true
  | .silenceExpiry _ | .startWindowExpiry _ | .maxDefrostExpiry _ | .stopWindowExpiry _ => true
  | .drainExpiry _ | .doorTimerExpiry _ | .restoreTimerExpiry _ | .reclaimExpiry _ => true
  | .lockHoldExpiry | .yardTick | .feederOkFall _ | .feederOkRise _ | .resetNFall => true
  | .resetNRelease _ => true

end Sys2Proof
end

