-- ==== Sys2Proof/Config.lean ====
section
/-! DEFINITION. What one board fixes, and the one free value of the manual. -/

namespace Sys2Proof.Config

/-- What a byte of record memory reads as when nothing has written it (R18 gives no contents after
power-on). DESIGN CHOICE, unsafe: log 1. -/
def unlistedByte : Byte := 0

/-- The MEMSIZE[1:0] straps of the board of `State.reset`: 256K words, the memory of every worked
example. DESIGN CHOICE, unsafe: log 2. -/
def resetStraps : BitVec 2 := 1

/-- FREE VALUE: which words of the burst cut by the `n`-th RESET_N fall had been written (bit `k` for the
burst's word `k`). R18 says only that some had and the others had not: log 4. -/
opaque cutWords : Nat → BitVec 8

end Sys2Proof.Config
end

