-- ==== Sys2Proof/Machine/State.lean ====
section
/-! DEFINITION. The state of the YC620, block by block, as plain data, and the state right after RESET_N is released. -/

namespace Sys2Proof.Machine

/-! ## The memory path (chapter 1) -/

/-- The three modes (R14). -/
inductive Mode where
  | pass
  | run
  | halted
  deriving DecidableEq, Repr

/-- One entry of the window table: an inclusive page range, off when base is greater than limit (R5). -/
structure Window where
  base : Nat
  limit : Nat
  deriving DecidableEq, Repr

/-- The window table (R5). -/
structure Windows where
  inbox : Window
  bays : Window
  ring : Window
  deriving DecidableEq, Repr

/-- The three completions of a request (R2); a DONE read carries its words. -/
inductive Completion where
  | done (data : List Word)
  | retry
  | refuse
  deriving DecidableEq, Repr

/-- What the Front Port gives an initiator. -/
structure BusAnswer where
  initiator : Initiator
  completion : Completion
  deriving DecidableEq, Repr

/-- What becomes of an outstanding request when its burst completes. A bay-record read remembers its bay and
whether an update of it has begun since the read was judged (R168, R171). -/
inductive Path where
  | plain
  | bayRead (bay : BayNo) (overtaken : Bool)
  | settings (bay : BayNo)
  | argument (arg : ArgName)
  | commandWord
  | consumerIndex
  deriving DecidableEq, Repr

/-- The one outstanding request, as it is presented to the Memory Port Arbiter (R1). -/
structure Outstanding where
  request : Request
  path : Path
  deriving DecidableEq, Repr

/-- The Front Port: the outstanding request and the completion output (log 19). -/
structure FrontPort where
  outstanding : Option Outstanding
  answer : Option BusAnswer
  deriving DecidableEq, Repr

/-- The Window Decoder: sampled memory size, mode, window table (R4, R5, R14). -/
structure Decoder where
  memSize : BitVec 2
  mode : Mode
  windows : Windows
  deriving DecidableEq, Repr

/-- The five requesters of the memory port, in the arbiter's order (R16). -/
inductive Requester where
  | passThrough
  | record
  | notice
  | status
  | fetch
  deriving DecidableEq, Repr

/-- The Memory Port Arbiter: where its search starts and whose burst is under way (R16). -/
structure Arbiter where
  start : Requester
  granted : Option Requester
  deriving DecidableEq, Repr

/-- The part's lines (00_scope, "Signal groups"): `true` is high. -/
structure Pins where
  resetN : Bool
  memsize : BitVec 2
  feederOk : Vector Bool 8
  attnN : Bool
  deriving DecidableEq, Repr

/-- The twelve counters (R194). -/
structure Counters where
  framesTaken : Half
  badCheck : Half
  duplicates : Half
  gaps : Half
  outOfOrder : Half
  superseded : Half
  unmappedFrames : Half
  unknownOverflow : Half
  retriesIssued : Half
  refusalsIssued : Half
  readsReclaimed : Half
  locksBroken : Half
  deriving DecidableEq, Repr

/-! ## The Inbox Queue and the Link Tracker (chapters 2 and 3) -/

/-- The four words of a reading frame (R62). -/
structure Frame where
  w0 : Word
  w1 : Word
  w2 : Word
  w3 : Word
  deriving DecidableEq, Repr

/-- An Inbox Queue entry (R22). -/
structure InboxEntry where
  frame : Frame
  radio : RadioAddr
  arrival : Time
  deriving DecidableEq, Repr

/-- Track states (R36). -/
inductive TrackState where
  | hunt
  | proving
  | tracked
  deriving DecidableEq, Repr

/-- A Tag Map entry (R36). -/
structure TagEntry where
  radio : RadioAddr
  bay : BayNo
  track : TrackState
  lastSeq : Seq
  proof : Nat
  bad : Nat
  deriving DecidableEq, Repr

/-- An Unknown Tag List entry (R51). -/
structure UnknownEntry where
  radio : RadioAddr
  firstSeen : Time
  firstSeq : Seq
  seen : Half
  deriving DecidableEq, Repr

/-- Kinds of test injection (R41). -/
inductive InjectKind where
  | badCheck
  | skip
  | drop
  deriving DecidableEq, Repr

/-- A frame handed on to the Check Engine (R49). -/
structure HandedFrame where
  frame : Frame
  seq : Seq
  radio : RadioAddr
  arrival : Time
  bay : BayNo
  deriving DecidableEq, Repr

/-- The Link Tracker (R37). -/
structure LinkTracker where
  tagMap : List TagEntry
  unknown : Vector (Option UnknownEntry) 16
  injection : Option (RadioAddr × InjectKind)
  handOff : Option HandedFrame
  deriving DecidableEq, Repr

/-! ## The Bay Table (chapters 4, 5, 7 and 8) -/

/-- A second-scale timer (R57): `running left length`; `expired` between an expiry and its update (log 23). -/
inductive Timer where
  | stopped
  | running (left length : Nat)
  | expired (length : Nat)
  deriving DecidableEq, Repr

/-- The two unit kinds. -/
inductive UnitKind where
  | diesel
  | electric
  deriving DecidableEq, Repr

/-- The last evaluated reading (R74). -/
structure Reading where
  doorOpen : Bool
  defrostActive : Bool
  engineRunning : Bool
  shorePower : Bool
  echo : BitVec 8
  returnAir : Half
  supplyAir : Half
  coil : Half
  setpoint : Half
  fuel : Half
  seq : Seq
  arrival : Time
  deriving DecidableEq, Repr

/-- The nine settings of a bay (R59). -/
structure Settings where
  fuelLow : Half
  fuelCritical : Half
  doorLimit : Half
  loadingDoorLimit : Half
  defrostInterval : Half
  iceMargin : BitVec 8
  coilIcePoint : BitVec 8
  fuelDrop : Half
  fuelHysteresis : Half
  deriving DecidableEq, Repr

/-- Defrost states (R78). -/
inductive DefrostState where
  | idle
  | due
  | ordered
  | running
  | stopping
  | draining
  | self
  deriving DecidableEq, Repr

/-- Why a bay in DUE has no power yet (R78). -/
inductive DueReason where
  | queued
  | held
  deriving DecidableEq, Repr

/-- The kinds of order (R78). -/
inductive OrderKind where
  | start
  | stop
  deriving DecidableEq, Repr

/-- An order not yet written to the ring, with the grant feeder it carries (R84). -/
structure PendingOrder where
  kind : OrderKind
  feeder : Option FeederNo
  deriving DecidableEq, Repr

/-- The defrost record (R78). -/
structure DefrostRecord where
  state : DefrostState
  reason : DueReason
  attempts : Nat
  iceCount : Nat
  timer : Timer
  lastEnd : Option Time
  orderNumber : BitVec 8
  lastKind : Option OrderKind
  pending : Option PendingOrder
  grantFeeder : Option FeederNo
  deriving DecidableEq, Repr

/-- Fuel states (R124). -/
inductive FuelState where
  | normal
  | low
  | critical
  | noSensor
  deriving DecidableEq, Repr

/-- The fuel record (R124): level and time of the baseline are none together. -/
structure FuelRecord where
  state : FuelState
  baseline : Option (Half × Time)
  deriving DecidableEq, Repr

/-- Door states (R137). -/
inductive DoorState where
  | closed
  | isOpen
  | openLong
  deriving DecidableEq, Repr

/-- The door record (R137). -/
structure DoorRecord where
  state : DoorState
  since : Time
  opens : Half
  timer : Timer
  deriving DecidableEq, Repr

/-- The three second-scale timers of a bay (R57). -/
inductive BayTimer where
  | silence
  | defrost
  | door
  deriving DecidableEq, Repr

/-- An event that waits for its turn at a bay (R67, R70, R71): an expiry with its stale mark, a revocation update, the
frame in the hand-off place, the frame of the deferred slot, or the current bay command. -/
inductive BayEvent where
  | expiry (timer : BayTimer) (stale : Bool)
  | revocation
  | handOffFrame
  | deferredFrame (f : HandedFrame)
  | command
  deriving DecidableEq, Repr

/-- A Bay Table entry (R57). -/
structure BayEntry where
  occupied : Bool
  radio : Option RadioAddr
  kind : UnitKind
  occStart : Time
  link : Option TrackState
  loading : Bool
  silent : Bool
  silentSince : Time
  readingHeld : Bool
  reading : Reading
  settings : Settings
  defrost : DefrostRecord
  fuel : FuelRecord
  door : DoorRecord
  feeder : FeederNo
  silence : Timer
  inFlight : Bool
  waiting : List BayEvent
  held : List BayEvent
  deferred : Option HandedFrame
  deriving DecidableEq, Repr

/-- A burst of the record writer (R66): the bay, the word address, the words, and whether it ends the update. -/
structure RecordBurst where
  bay : BayNo
  addr : Nat
  words : List Word
  ends : Bool
  deriving DecidableEq, Repr

/-! ## The Feeder Table (chapter 6) -/

/-- Feeder states (R105). -/
inductive FeederState where
  | active
  | tripped
  | restoring
  deriving DecidableEq, Repr

/-- A Feeder Table entry (R105). -/
structure Feeder where
  state : FeederState
  capacity : Nat
  grants : List BayNo
  selfCount : Nat
  queue : List (BayNo × Time)
  timer : Timer
  trippedSince : Time
  deriving DecidableEq, Repr

/-! ## The Notice Writer (chapter 9) -/

/-- The codes of alert and feeder conditions (R155). -/
inductive Code where
  | noStart
  | overrun
  | noStop
  | unordered
  | echoMismatch
  | low
  | critical
  | criticalNoPower
  | drop
  | refuel
  | sensor
  | openLong
  | inDefrost
  | closedAfterLong
  | silent
  | resumed
  | tracked
  | lapsed
  | tripped
  | restored
  deriving DecidableEq, Repr

/-- The detail of an entry, in one of three forms (R154). -/
inductive Detail where
  | order (number : BitVec 8) (feeder : Option FeederNo)
  | radio (addr : RadioAddr) (seq : Seq)
  | counts (first second : Nat)
  deriving DecidableEq, Repr

/-- A condition pending on an alert or feeder source (R157). -/
structure Condition where
  code : Code
  time : Time
  detail : Detail
  value : Word
  deriving DecidableEq, Repr

/-- Alert kinds (R154). -/
inductive AlertKind where
  | defrost
  | fuel
  | door
  | link
  deriving DecidableEq, Repr

/-- A notice source as the ring shadow records it (R159): alert sources are numbered in scan order (R161). -/
inductive Source where
  | order (b : BayNo)
  | feeder (f : FeederNo)
  | tag (place : Fin 16)
  | alert (slot : Fin 640)
  deriving DecidableEq, Repr

/-- The notice sources and the order list (R157, R158). -/
structure Sources where
  alerts : Vector (Option Condition) 640
  feeders : Vector (Option Condition) 8
  tags : Vector Bool 16
  orders : List (BayNo × Time)
  deriving DecidableEq, Repr

/-- The ring: indices, shadow, scan position and the entry in flight with its words (R151, R152, R159, R161). -/
structure Ring where
  producer : BitVec 8
  consumer : BitVec 8
  shadow : Vector (Option Source) 256
  scan : Fin 640
  inFlight : Option (List Word)
  deriving DecidableEq, Repr

/-! ## The Record Access Unit (chapter 10) -/

/-- What identifies an entry of the Delayed Read Table (R172). -/
structure ReadKey where
  initiator : Initiator
  addr : WordAddr
  length : Nat
  deriving DecidableEq, Repr

/-- The state of a delayed entry (R172); READY holds the words and the microseconds left on the reclaim timer. -/
inductive DelayedState where
  | queued
  | ready (data : List Word) (left : Nat)
  deriving DecidableEq, Repr

/-- A Delayed Read Table entry (R172). -/
structure DelayedEntry where
  key : ReadKey
  state : DelayedState
  deriving DecidableEq, Repr

/-- The fetch under way (R168). -/
structure Fetch where
  key : ReadKey
  void : Bool
  deriving DecidableEq, Repr

/-- The Bay Lock (R178) with the microseconds left on its hold timer. -/
structure BayLock where
  holder : Initiator
  bay : BayNo
  left : Nat
  deriving DecidableEq, Repr

/-- The Record Access Unit (R168). -/
structure RecordAccess where
  table : List DelayedEntry
  fetch : Option Fetch
  lock : Option BayLock
  deriving DecidableEq, Repr

/-! ## The mailbox, parameters, clock and Status Writer (chapter 11) -/

/-- Mailbox states (R187). -/
inductive MailboxState where
  | idle
  | busy
  | done
  deriving DecidableEq, Repr

/-- Result codes (R190). -/
inductive Result where
  | ok
  | badArg
  | badState
  | notFound
  deriving DecidableEq, Repr

/-- The current command (R187). -/
structure Command where
  code : Word
  a : Word
  b : Word
  c : Word
  deriving DecidableEq, Repr

/-- Where the current command stands while the mailbox is BUSY (R69, R71, R14; log 22). -/
inductive Progress where
  | none
  | awaitsUnlock (b : BayNo)
  | awaitsTurn (b : BayNo)
  | updating (b : BayNo)
  | halting
  | finished
  deriving DecidableEq, Repr

/-- The Command Mailbox (R187). -/
structure Mailbox where
  state : MailboxState
  argA : Word
  argB : Word
  argC : Word
  current : Option Command
  progress : Progress
  lastCode : BitVec 8
  lastResult : Option Result
  completions : Half
  deriving DecidableEq, Repr

/-- The device-wide parameters (R192). -/
structure Params where
  silenceLimit : Nat
  startWindow : Nat
  maxDefrost : Nat
  stopWindow : Nat
  drainTime : Nat
  restoreDelay : Nat
  reclaimTime : Nat
  lockHoldLimit : Nat
  proofCount : Nat
  lapseCount : Nat
  iceConfirm : Nat
  maxAttempts : Nat
  deriving DecidableEq, Repr

/-- The Yard Clock (R193): yard time, and the REFCLK periods counted by the second base. -/
structure YardClock where
  time : Time
  base : Nat
  deriving DecidableEq, Repr

/-- The burst the Status Writer has presented: burst 1-3 of a rewrite, or the result word (R195). -/
inductive StatusBurst where
  | block (number : Nat) (words : List Word)
  | result (word : Word)
  deriving DecidableEq, Repr

/-- The Status Writer (R195). `rewrite` is the number of the burst presented or presented next; `causeShown` says whether
the cause word of the rewrite in progress shows a cause (R167). -/
structure StatusWriter where
  wanted : Bool
  rewrite : Option Nat
  presented : Option StatusBurst
  resultPending : Bool
  counterChanged : Bool
  generation : Half
  causeShown : Bool
  deriving DecidableEq, Repr

/-- Record memory: (byte address, byte) pairs, addresses rising, no byte that reads as an unlisted one.
The byte address is four times the word address plus the lane (log 30). -/
abbrev Memory := List Host.Cell

/-- The state of the part, its lines and its record memory, and the commands waiting for it. -/
structure State where
  pending : List Instr
  pins : Pins
  front : FrontPort
  decoder : Decoder
  mem : Memory
  arbiter : Arbiter
  counters : Counters
  inbox : List InboxEntry
  link : LinkTracker
  bays : Vector BayEntry 160
  bursts : List RecordBurst
  feeders : Vector Feeder 8
  sources : Sources
  ring : Ring
  access : RecordAccess
  mailbox : Mailbox
  params : Params
  clock : YardClock
  status : StatusWriter
  freeUsed : Nat
  deriving DecidableEq, Repr

/-- Faults: the manual names none, so no step faults. -/
inductive Fault where
  deriving DecidableEq, Repr

/-- Refusals. -/
inductive Refusal where
  /-- An arm of `exec` that has no meaning yet; safe. -/
  | notModelled (mnemonic : String)
  /-- Raised by a front-port command that no bus can present: a length that is not 1-8 (R1), or an UNKNOWN_COMMAND
  whose code is 0 or a known one (R191). Safe: log 17. -/
  | illFormed
  deriving DecidableEq, Repr

/-! ## Reset values -/

/-- A window that is off (R5). -/
def Window.off : Window := ⟨1023, 0⟩

/-- All counters 0 (R194). -/
def Counters.zero : Counters := ⟨0, 0, 0, 0, 0, 0, 0, 0, 0, 0, 0, 0⟩

/-- The all-zero reading (R58). -/
def Reading.zero : Reading := ⟨false, false, false, false, 0, 0, 0, 0, 0, 0, 0, 0⟩

/-- The default settings (R59); the coil ice point is -5. -/
def Settings.default : Settings := ⟨250, 100, 300, 2700, 360, 20, 0xFB, 50, 30⟩

/-- The defrost record after RESET_N (R79). -/
def DefrostRecord.reset : DefrostRecord :=
  ⟨.idle, .queued, 0, 0, .stopped, none, 0, none, none, none⟩

/-- The feeder a bay is assigned to at RESET_N: the bay number divided by 20 (R58). -/
def homeFeeder (b : BayNo) : FeederNo := ⟨b.val / 20, by omega⟩

/-- A Bay Table entry after RESET_N (R58, R124, R137). -/
def BayEntry.reset (b : BayNo) : BayEntry where
  occupied := false
  radio := none
  kind := .diesel
  occStart := 0
  link := none
  loading := false
  silent := false
  silentSince := 0
  readingHeld := false
  reading := .zero
  settings := .default
  defrost := .reset
  fuel := ⟨.normal, none⟩
  door := ⟨.closed, 0, 0, .stopped⟩
  feeder := homeFeeder b
  silence := .stopped
  inFlight := false
  waiting := []
  held := []
  deferred := none

/-- A Feeder Table entry after RESET_N, by the level of its line at release (R106). -/
def Feeder.reset (lineHigh : Bool) : Feeder :=
  ⟨if lineHigh then .active else .tripped, 2, [], 0, [], .stopped, 0⟩

/-- The notice sources after RESET_N (R153). -/
def Sources.reset : Sources :=
  ⟨Vector.replicate 640 none, Vector.replicate 8 none, Vector.replicate 16 false, []⟩

/-- The ring after RESET_N: the scan position is bay 159, kind LINK (R153). -/
def Ring.reset : Ring := ⟨0, 0, Vector.replicate 256 none, 639, none⟩

/-- The default parameters (R192). -/
def Params.default : Params := ⟨600, 180, 2700, 180, 300, 60, 1000, 2000, 2, 4, 3, 3⟩

/-- The mailbox after RESET_N (R187). -/
def Mailbox.reset : Mailbox := ⟨.idle, 0, 0, 0, none, .none, 0, none, 0⟩

/-- The Status Writer after RESET_N, before the rewrite R198 asks for (R195). -/
def StatusWriter.reset : StatusWriter := ⟨false, none, none, false, false, 0, false⟩

/-- The twenty status words begin with these eight in the first rewrite after a release with all FEEDER_OK lines
high (R196, R198): generation 1 in s0, capacity 2 in each feeder word. -/
def firstStatusBurst : List Word :=
  [0x00010000, 0, 0, 0, 0x08000000, 0x08000000, 0x08000000, 0x08000000]

/-- Every block at its reset value (R18, R37, R58, R106, R153, R168, R187, R192-R195), with the straps and lines as
given, before the release asks for the first rewrite. `State.reset` and both RESET_N steps start from it. -/
def State.blank (pending : List Instr) (pins : Pins) (mem : Memory) (freeUsed : Nat) : State where
  pending := pending
  pins := pins
  front := ⟨none, none⟩
  decoder := ⟨pins.memsize, .pass, ⟨.off, .off, .off⟩⟩
  mem := mem
  arbiter := ⟨.passThrough, none⟩
  counters := .zero
  inbox := []
  link := ⟨[], Vector.replicate 16 none, none, none⟩
  bays := Vector.ofFn BayEntry.reset
  bursts := []
  feeders := pins.feederOk.map Feeder.reset
  sources := .reset
  ring := .reset
  access := ⟨[], none, none⟩
  mailbox := .reset
  params := .default
  clock := ⟨0, 0⟩
  status := .reset
  freeUsed := freeUsed

/-- The part right after RESET_N is released, on the board of log 2 and log 3, with nothing written to memory: the
first status rewrite has begun and its first burst is presented (R18, R198). -/
def State.reset : State :=
  { State.blank [] ⟨true, Config.resetStraps, Vector.replicate 8 true, true⟩ [] 0 with
    status :=
      { StatusWriter.reset with
        rewrite := some 1
        presented := some (.block 1 firstStatusBurst)
        generation := 1 } }

end Sys2Proof.Machine
end

