-- ==== Sys2Proof/Machine/Ops.lean ====
section
/-! DEFINITION. The named operations over record memory and over the blocks' own state that every step is built from. -/

namespace Sys2Proof.Machine

/-! ## Record memory -/

/-- The byte at a byte address; an unlisted one reads `Config.unlistedByte`. -/
def Memory.read : Memory → Nat → Byte
  | [], _ => Config.unlistedByte
  | (x, v) :: rest, a => if x = a then v else Memory.read rest a

/-- Put a listed byte at its place. -/
def Memory.insert (a : Nat) (v : Byte) : Memory → Memory
  | [] => [(a, v)]
  | (x, w) :: rest =>
    if a < x then (a, v) :: (x, w) :: rest
    else if a = x then (a, v) :: rest
    else (x, w) :: Memory.insert a v rest

/-- Remove the entry of an address. -/
def Memory.erase (a : Nat) : Memory → Memory
  | [] => []
  | (x, w) :: rest =>
    if a < x then (x, w) :: rest
    else if a = x then rest
    else (x, w) :: Memory.erase a rest

/-- Write one byte, keeping the canonical form. -/
def Memory.write (m : Memory) (a : Nat) (v : Byte) : Memory :=
  if v = Config.unlistedByte then Memory.erase a m else Memory.insert a v m

/-- Addresses rise from `lo` on and no entry equals what an unlisted address reads as. -/
def Memory.wfFrom : Nat → Memory → Bool
  | _, [] => true
  | lo, (x, v) :: rest => lo ≤ x && v != Config.unlistedByte && Memory.wfFrom (x + 1) rest

/-- The canonical form of record memory. -/
def Memory.wf (m : Memory) : Bool := Memory.wfFrom 0 m

/-- Lane `k` of a word: lane 0 holds bits 7-0, lane 3 bits 31-24 (00_scope). -/
def laneOf (w : Word) (k : Nat) : Byte := w.extractLsb' (8 * k) 8

/-- The word at a word address. -/
def Memory.readWord (m : Memory) (w : Nat) : Word :=
  Memory.read m (4 * w + 3) ++ Memory.read m (4 * w + 2) ++ Memory.read m (4 * w + 1) ++ Memory.read m (4 * w)

/-- `n` consecutive words. -/
def Memory.readWords (m : Memory) (w : Nat) : Nat → List Word
  | 0 => []
  | n + 1 => Memory.readWord m w :: Memory.readWords m (w + 1) n

/-- Write lane `k` of a word where the mask sets it (R12). -/
def Memory.writeLane (m : Memory) (w : Nat) (mask : Mask) (x : Word) (k : Nat) : Memory :=
  if mask.getLsbD k then Memory.write m (4 * w + k) (laneOf x k) else m

/-- Write the lanes of one word that its mask sets; the others stay (R12). -/
def Memory.writeWord (m : Memory) (w : Nat) (mask : Mask) (x : Word) : Memory :=
  Memory.writeLane (Memory.writeLane (Memory.writeLane (Memory.writeLane m w mask x 0) w mask x 1) w mask x 2) w mask x 3

/-- Write consecutive words, each under its mask. -/
def Memory.writeWords (m : Memory) (w : Nat) : List (Mask × Word) → Memory
  | [] => m
  | (mask, x) :: rest => Memory.writeWords (Memory.writeWord m w mask x) (w + 1) rest

/-- The mask with all four lanes set. -/
def fullMask : Mask := 15

/-- Words written with all four lanes. -/
def fullWords (ws : List Word) : List (Mask × Word) := ws.map fun w => (fullMask, w)

/-! ## Tables -/

/-- The entry of a bay. -/
def State.bay (s : State) (b : BayNo) : BayEntry := s.bays[b]

/-- Replace the entry of a bay. -/
def State.setBay (s : State) (b : BayNo) (e : BayEntry) : State := { s with bays := s.bays.set b e }

/-- The entry of a feeder. -/
def State.feeder (s : State) (f : FeederNo) : Feeder := s.feeders[f]

/-- Replace the entry of a feeder. -/
def State.setFeeder (s : State) (f : FeederNo) (x : Feeder) : State := { s with feeders := s.feeders.set f x }

/-- The bay is held under the Bay Lock (R178). -/
def State.locked (s : State) (b : BayNo) : Bool := s.access.lock.any fun l => l.bay == b

/-- Yard time (R193). -/
def State.now (s : State) : Time := s.clock.time

/-! ## Counters and completions -/

/-- A 16-bit count that stops at 65535 (R17, R56, R70, R185). -/
def satAdd (c : Half) (n : Nat) : Half := BitVec.ofNat 16 (min 65535 (c.toNat + n))

/-- Set the counters; any change of any counter sets the counter changed mark (R195). -/
def State.count (s : State) (c : Counters) : State :=
  { s with
    counters := c
    status := { s.status with counterChanged := s.status.counterChanged || c != s.counters } }

/-- The counters after a completion (R17). -/
def Counters.afterCompletion (c : Counters) : Completion → Counters
  | .done _ => c
  | .retry => { c with retriesIssued := satAdd c.retriesIssued 1 }
  | .refuse => { c with refusalsIssued := satAdd c.refusalsIssued 1 }

/-- The Front Port gives the one completion of a request and counts it (R2, R17). -/
def State.complete (s : State) (i : Initiator) (c : Completion) : State :=
  State.count { s with front := ⟨none, some ⟨i, c⟩⟩ } (s.counters.afterCompletion c)

/-! ## The Status Writer's requests and the mailbox -/

/-- Ask the Status Writer for a rewrite (R195). -/
def State.wantRewrite (s : State) : State := { s with status := { s.status with wanted := true } }

/-- The current command finishes with a result, which waits for its result word burst (R190). -/
def State.finish (s : State) (r : Result) : State :=
  match s.mailbox.current with
  | none => s
  | some cmd =>
    { s with
      mailbox :=
        { s.mailbox with
          lastCode := cmd.code.setWidth 8
          lastResult := some r
          completions := s.mailbox.completions + 1
          progress := .finished }
      status := { s.status with resultPending := true } }

/-- Note where the current command stands (log 22). -/
def State.setProgress (s : State) (p : Progress) : State := { s with mailbox := { s.mailbox with progress := p } }

/-! ## Notice sources (R157, R158) -/

/-- The place of an alert kind in the scan order of one bay (R161). -/
def AlertKind.index : AlertKind → Fin 4
  | .defrost => 0
  | .fuel => 1
  | .door => 2
  | .link => 3

/-- The alert source of a bay and kind, numbered in scan order: bay 0 DEFROST, bay 0 FUEL, … (R161). -/
def alertSlot (b : BayNo) (k : AlertKind) : Fin 640 := ⟨b.val * 4 + k.index.val, by omega⟩

/-- Raise an alert condition; it replaces the one pending on its source (R157). -/
def Sources.raiseAlert (q : Sources) (b : BayNo) (k : AlertKind) (c : Condition) : Sources :=
  { q with alerts := q.alerts.set (alertSlot b k) (some c) }

/-- Raise a feeder condition (R119, R157). -/
def Sources.raiseFeeder (q : Sources) (f : FeederNo) (c : Condition) : Sources :=
  { q with feeders := q.feeders.set f (some c) }

/-- An order of bay `b` becomes pending: a bay already listed keeps its place and takes the new time (R158). -/
def Sources.orderPends (q : Sources) (b : BayNo) (t : Time) : Sources :=
  { q with
    orders :=
      if q.orders.any (fun e => e.1 == b) then q.orders.map fun e => if e.1 == b then (b, t) else e
      else q.orders ++ [(b, t)] }

/-- Bay `b` leaves the order list: its order is withdrawn or claimed (R158). -/
def Sources.orderLeaves (q : Sources) (b : BayNo) : Sources :=
  { q with orders := q.orders.filter fun e => e.1 != b }

/-- Withdraw the pending sources of a bay at UNMAP_TAG (R164). -/
def Sources.withdrawBay (q : Sources) (b : BayNo) : Sources :=
  Sources.orderLeaves
    { q with
      alerts :=
        (((q.alerts.set (alertSlot b .defrost) none).set (alertSlot b .fuel) none).set (alertSlot b .door) none).set
          (alertSlot b .link) none }
    b

/-- Raise an alert condition of a bay. -/
def State.raiseAlert (s : State) (b : BayNo) (k : AlertKind) (c : Condition) : State :=
  { s with sources := s.sources.raiseAlert b k c }

end Sys2Proof.Machine
end

