-- ==== Sys2Proof/Machine/Operands.lean ====
section
/-! DEFINITION. The operand forms: the frame, settings and record layouts with their check code (R31, R62-R65), and
where a front-port request points (R3, R5, R8, R19, R20). -/

namespace Sys2Proof.Machine

/-! ## The check code (R31) -/

/-- One data bit through the 16-bit register. -/
def crcBit (reg : Half) (bit : Bool) : Half :=
  let shifted := reg <<< 1
  if reg.getLsbD 15 ^^ bit then shifted ^^^ 0x1021 else shifted

/-- The top `n` bits of `x` numbered below `n`, from bit `n - 1` down to bit 0. -/
def crcBits (x : Half) : Nat → Half → Half
  | 0, reg => reg
  | n + 1, reg => crcBits x n (crcBit reg (x.getLsbD n))

/-- One half-word, from bit 15 down to bit 0. -/
def crcHalf (reg : Half) (x : Half) : Half := crcBits x 16 reg

/-- The check code of a list of half-words, from FFFFh. -/
def checkCode (xs : List Half) : Half := xs.foldl crcHalf 0xFFFF

/-- The high half-word, bits 31-16. -/
def highHalf (w : Word) : Half := w.extractLsb' 16 16

/-- The low half-word, bits 15-0. -/
def lowHalf (w : Word) : Half := w.extractLsb' 0 16

/-! ## The reading frame (R29, R30, R62) -/

/-- The radio address field of w0. -/
def Frame.radio (f : Frame) : RadioAddr := f.w0.extractLsb' 22 10

/-- The sequence field. -/
def Frame.seq (f : Frame) : Seq := f.w0.extractLsb' 14 8

/-- The order echo field. -/
def Frame.echo (f : Frame) : BitVec 8 := f.w0.extractLsb' 6 8

/-- The door open flag. -/
def Frame.doorOpen (f : Frame) : Bool := f.w0.getLsbD 5

/-- The defrost active flag. -/
def Frame.defrostActive (f : Frame) : Bool := f.w0.getLsbD 4

/-- The engine running flag. -/
def Frame.engineRunning (f : Frame) : Bool := f.w0.getLsbD 3

/-- The shore power flag. -/
def Frame.shorePower (f : Frame) : Bool := f.w0.getLsbD 2

/-- The format field. -/
def Frame.format (f : Frame) : BitVec 2 := f.w0.extractLsb' 0 2

/-- The fuel level. -/
def Frame.fuel (f : Frame) : Half := highHalf f.w3

/-- The seven half-words the frame's check code covers (R31). -/
def Frame.covered (f : Frame) : List Half :=
  [highHalf f.w0, lowHalf f.w0, highHalf f.w1, lowHalf f.w1, highHalf f.w2, lowHalf f.w2, highHalf f.w3]

/-- A temperature or setpoint in range: -500 to +500 (R32). -/
def temperatureOk (t : Half) : Bool := -500 ≤ t.toInt && t.toInt ≤ 500

/-- A fuel level in range: 0-1000, or 65535 (R32). -/
def fuelOk (l : Half) : Bool := l.toNat ≤ 1000 || l == 0xFFFF

/-- The frame of a slot is good (R32). -/
def Frame.good (f : Frame) (slotRadio : RadioAddr) : Bool :=
  checkCode f.covered == lowHalf f.w3 && f.format == 1 && f.radio == slotRadio
    && temperatureOk (highHalf f.w1) && temperatureOk (lowHalf f.w1)
    && temperatureOk (highHalf f.w2) && temperatureOk (lowHalf f.w2) && fuelOk f.fuel

/-- The reading the store stage takes from a handed-on frame (R74). -/
def HandedFrame.reading (h : HandedFrame) : Reading where
  doorOpen := h.frame.doorOpen
  defrostActive := h.frame.defrostActive
  engineRunning := h.frame.engineRunning
  shorePower := h.frame.shorePower
  echo := h.frame.echo
  returnAir := highHalf h.frame.w1
  supplyAir := lowHalf h.frame.w1
  coil := highHalf h.frame.w2
  setpoint := lowHalf h.frame.w2
  fuel := h.frame.fuel
  seq := h.seq
  arrival := h.arrival

/-! ## Settings (R59, R60) -/

/-- Record words 12-15 (R59). -/
def Settings.words (x : Settings) : List Word :=
  [x.fuelLow ++ x.fuelCritical, x.doorLimit ++ x.loadingDoorLimit,
   x.defrostInterval ++ x.iceMargin ++ x.coilIcePoint, x.fuelDrop ++ x.fuelHysteresis]

/-- The settings that words 12-15 hold (R59). -/
def Settings.ofWords (w12 w13 w14 w15 : Word) : Settings where
  fuelLow := highHalf w12
  fuelCritical := lowHalf w12
  doorLimit := highHalf w13
  loadingDoorLimit := lowHalf w13
  defrostInterval := highHalf w14
  iceMargin := w14.extractLsb' 8 8
  coilIcePoint := w14.extractLsb' 0 8
  fuelDrop := highHalf w15
  fuelHysteresis := lowHalf w15

/-- All nine values are in their ranges (R59, R60). -/
def Settings.inRange (x : Settings) : Bool :=
  20 ≤ x.fuelLow.toNat && x.fuelLow.toNat ≤ 900
    && x.fuelCritical.toNat < x.fuelLow.toNat
    && 30 ≤ x.doorLimit.toNat
    && x.doorLimit.toNat ≤ x.loadingDoorLimit.toNat
    && 60 ≤ x.defrostInterval.toNat && x.defrostInterval.toNat ≤ 1440
    && -40 ≤ x.coilIcePoint.toInt && x.coilIcePoint.toInt ≤ 10
    && 10 ≤ x.fuelDrop.toNat && x.fuelDrop.toNat ≤ 500
    && 5 ≤ x.fuelHysteresis.toNat && x.fuelHysteresis.toNat ≤ 200

/-- Replace in a word every lane the mask sets. -/
def mergeLanes (old : Word) (mask : Mask) (new : Word) : Word :=
  let lane (k : Nat) : Byte := if mask.getLsbD k then laneOf new k else laneOf old k
  lane 3 ++ lane 2 ++ lane 1 ++ lane 0

/-- Merge a write that begins at word `at_` of a list of words into that list. -/
def mergeWords : List Word → Nat → List (Mask × Word) → List Word
  | [], _, _ => []
  | old, _, [] => old
  | w :: old, 0, (mask, x) :: new => mergeLanes w mask x :: mergeWords old 0 new
  | w :: old, k + 1, new => w :: mergeWords old k new

/-- The merged settings of a settings write that begins at record word `12 + k` (R60). -/
def Settings.merge (x : Settings) (k : Nat) (ws : List (Mask × Word)) : Settings :=
  match mergeWords x.words k ws with
  | [a, b, c, d] => .ofWords a b c d
  | _ => x

/-- The words a settings write passes to memory: the merged value of every word it touches, all lanes (R60). -/
def Settings.touched (x : Settings) (k n : Nat) : List (Mask × Word) := fullWords ((x.words.drop k).take n)

/-! ## The bay record (R63, R64, R65) -/

/-- A flag as one bit. -/
def flagBit (b : Bool) : BitVec 1 := BitVec.ofBool b

/-- Link state codes (R64). -/
def linkCode : Option TrackState → BitVec 2
  | some .hunt => 0
  | some .proving => 1
  | some .tracked => 2
  | none => 3

/-- Unit kind codes (R64). -/
def UnitKind.code : UnitKind → BitVec 1
  | .diesel => 0
  | .electric => 1

/-- Defrost state codes (R64). -/
def DefrostState.code : DefrostState → BitVec 3
  | .idle => 0
  | .due => 1
  | .ordered => 2
  | .running => 3
  | .stopping => 4
  | .draining => 5
  | .self => 6

/-- DUE reason code; 0 outside DUE (R64). -/
def DefrostRecord.reasonCode (d : DefrostRecord) : BitVec 1 :=
  if d.state = .due ∧ d.reason = .held then 1 else 0

/-- Pending order codes (R64). -/
def pendingCode : Option PendingOrder → BitVec 2
  | none => 0
  | some ⟨.start, _⟩ => 1
  | some ⟨.stop, _⟩ => 2

/-- A feeder number, or 15 for none (R64, R154). -/
def feederCode : Option FeederNo → BitVec 4
  | none => 15
  | some f => BitVec.ofNat 4 f.val

/-- Fuel state codes (R64). -/
def FuelState.code : FuelState → BitVec 2
  | .normal => 0
  | .low => 1
  | .critical => 2
  | .noSensor => 3

/-- Door state codes (R64). -/
def DoorState.code : DoorState → BitVec 2
  | .closed => 0
  | .isOpen => 1
  | .openLong => 2

/-- Whole seconds left on a timer, 0 when it does not run (R63). -/
def Timer.secondsLeft : Timer → Nat
  | .running left _ => left
  | _ => 0

/-- The high half-word of record word 0 (R63). -/
def BayEntry.headHalf (b : BayNo) (e : BayEntry) : Half :=
  BitVec.ofNat 8 b.val ++ flagBit e.occupied ++ flagBit e.silent ++ flagBit e.loading ++ linkCode e.link
    ++ flagBit e.readingHeld ++ (0 : BitVec 2)

/-- Record word 1 (R63). -/
def BayEntry.word1 (e : BayEntry) : Word :=
  e.radio.getD 0 ++ e.reading.seq ++ e.reading.echo ++ flagBit e.reading.doorOpen ++ flagBit e.reading.defrostActive
    ++ flagBit e.reading.engineRunning ++ flagBit e.reading.shorePower ++ e.kind.code ++ (0 : BitVec 1)

/-- Record word 6 (R63). -/
def BayEntry.word6 (e : BayEntry) : Word :=
  e.defrost.orderNumber ++ e.defrost.state.code ++ BitVec.ofNat 3 e.defrost.attempts ++ e.defrost.reasonCode
    ++ pendingCode e.defrost.pending ++ feederCode e.defrost.grantFeeder ++ BitVec.ofNat 4 e.defrost.iceCount
    ++ (0 : BitVec 7)

/-- Record word 7 (R63). -/
def BayEntry.word7 (e : BayEntry) : Word :=
  BitVec.ofNat 16 e.defrost.timer.secondsLeft ++ e.fuel.state.code ++ e.door.state.code ++ (0 : BitVec 12)

/-- Record words 1-11 (R63). -/
def BayEntry.bodyWords (e : BayEntry) : List Word :=
  [e.word1,
   e.reading.arrival,
   e.reading.returnAir ++ e.reading.supplyAir,
   e.reading.coil ++ e.reading.setpoint,
   e.reading.fuel ++ (0 : BitVec 15) ++ e.kind.code,
   e.word6,
   e.word7,
   e.defrost.lastEnd.getD 0xFFFFFFFF,
   e.door.since,
   e.door.opens ++ (e.fuel.baseline.map Prod.fst).getD 0xFFFF,
   (e.fuel.baseline.map Prod.snd).getD 0]

/-- The record check code over 23 half-words: w0 high, then w1 high to w11 low (R65). -/
def BayEntry.recordCode (b : BayNo) (e : BayEntry) : Half :=
  checkCode (e.headHalf b :: e.bodyWords.flatMap fun w => [highHalf w, lowHalf w])

/-- The sixteen words of a bay's record (R63). -/
def BayEntry.recordWords (b : BayNo) (e : BayEntry) : List Word :=
  (e.headHalf b ++ e.recordCode b) :: (e.bodyWords ++ e.settings.words)

/-! ## Where a request points (R3-R5, R8, R19) -/

/-- The number of pages of memory by the sampled MEMSIZE value (R4). -/
def pagesOf (memSize : BitVec 2) : Nat := 128 <<< memSize.toNat

/-- The memory size in words (R4). -/
def Decoder.words (d : Decoder) : Nat := pagesOf d.memSize * 1024

/-- The first word of the setup page, the last page of memory (R4). -/
def Decoder.setupBase (d : Decoder) : Nat := (pagesOf d.memSize - 1) * 1024

/-- A window is on when its base page is not greater than its limit page (R5). -/
def Window.on (w : Window) : Bool := w.base ≤ w.limit

/-- The number of pages of a window. -/
def Window.pages (w : Window) : Nat := if w.on then w.limit - w.base + 1 else 0

/-- The base word address of a window (R19). -/
def Window.baseWord (w : Window) : Nat := w.base * 1024

/-- A word lies in a window that is on (R5). -/
def Window.covers (w : Window) (a : Nat) : Bool := w.on && w.baseWord ≤ a && a < (w.limit + 1) * 1024

/-- A radio address is served: 1 to pages x 256 - 1 (R5, R19). -/
def Windows.servesRadio (w : Windows) (n : Nat) : Bool := 1 ≤ n && n < w.inbox.pages * 256

/-- A bay is served: 0 to the smaller of 159 and pages x 64 - 1 (R5). -/
def Windows.servesBay (w : Windows) (n : Nat) : Bool := n < 160 && n < w.bays.pages * 64

/-- The served bay whose record holds a word, if there is one (R5). -/
def Windows.bayAt (w : Windows) (a : Nat) : Option BayNo :=
  if w.bays.covers a then
    if h : (a - w.bays.baseWord) / 16 < 160 then some ⟨(a - w.bays.baseWord) / 16, h⟩ else none
  else none

/-- The first word of a bay's record (R5). -/
def Windows.recordWord (w : Windows) (b : BayNo) : Nat := w.bays.baseWord + b.val * 16

/-- The role of a word of the setup area by its offset (R8). -/
inductive SetupRole where
  | command
  | argument (arg : ArgName)
  | result
  | consumer
  | status
  | plain
  deriving DecidableEq, Repr

/-- The roles of R8. -/
def setupRole (offset : Nat) : SetupRole :=
  if offset = 0 then .command
  else if offset = 1 then .argument .a
  else if offset = 2 then .argument .b
  else if offset = 3 then .argument .c
  else if offset = 4 then .result
  else if offset = 8 then .consumer
  else if 16 ≤ offset ∧ offset ≤ 35 then .status
  else .plain

/-- The path the Window Decoder gives a request (R3). -/
inductive Route where
  | refuse
  | plain
  | argument (arg : ArgName) (value : Word)
  | command (value : Word)
  | consumer (value : Word)
  | inbox (radio : RadioAddr) (frame : Frame)
  | bayRead (b : BayNo)
  | settings (b : BayNo) (firstWord : Nat) (words : List (Mask × Word))
  deriving DecidableEq, Repr

/-- The roles of the setup words a request at setup offset `offset` touches. -/
def rolesTouched (offset n : Nat) : List SetupRole := (List.range n).map fun k => setupRole (offset + k)

/-- Setup area rules for a write (R8, R9, R11): the result word and the status block are refused; the command word, an
argument word or the consumer index takes a single full-lane word. -/
def routeSetupWrite (offset : Nat) (ws : List (Mask × Word)) : Route :=
  let roles := rolesTouched offset ws.length
  if roles.any (fun r => r == .result || r == .status) then .refuse
  else
    match ws, setupRole offset with
    | [(mask, v)], .command => if mask = fullMask then .command v else .refuse
    | [(mask, v)], .argument x => if mask = fullMask then .argument x v else .refuse
    | [(mask, v)], .consumer => if mask = fullMask then .consumer v else .refuse
    | _, _ => .refuse

/-- The frame shape of an INBOX write (R20): four words, first word of a slot, all lanes, not slot 0. -/
def routeInboxWrite (base a : Nat) (ws : List (Mask × Word)) : Route :=
  match ws with
  | [(m0, w0), (m1, w1), (m2, w2), (m3, w3)] =>
    if a % 4 = 0 ∧ m0 = fullMask ∧ m1 = fullMask ∧ m2 = fullMask ∧ m3 = fullMask ∧ (a - base) / 4 ≠ 0 then
      .inbox (BitVec.ofNat 10 ((a - base) / 4)) ⟨w0, w1, w2, w3⟩
    else .refuse
  | _ => .refuse

/-- Window rules (R13, R20, R21): step 4 of R3 for a request at word `a` in an active window, `none` outside them. -/
def routeWindow (mode : Mode) (w : Windows) (a : Nat) (acc : Access) : Option Route :=
  if w.inbox.covers a then
    match acc with
    | .read _ => some .refuse
    | .write ws => if mode = .run then some (routeInboxWrite w.inbox.baseWord a ws) else some .refuse
  else if w.bays.covers a then
    match w.bayAt a, acc with
    | none, _ => some .refuse
    | some b, .read _ => some (.bayRead b)
    | some b, .write ws =>
      if (a - w.bays.baseWord) % 16 < 12 then some .refuse
      else some (.settings b ((a - w.bays.baseWord) % 16 - 12) ws)
  else if w.ring.covers a then
    match acc with
    | .read _ => some .plain
    | .write _ => some .refuse
  else none

/-- The shape of a request is refused: it reaches the memory size or crosses an aligned 8-word block (R3, step 1). -/
def badShape (d : Decoder) (r : Request) : Bool :=
  d.words < r.addr.toNat + r.access.length || 8 < r.addr.toNat % 8 + r.access.length

/-- A bay-record request: in RUN or HALTED, inside the record of a served bay (R3, step 2). -/
def isBayRequest (d : Decoder) (r : Request) : Bool :=
  d.mode != .pass && (d.windows.bayAt r.addr.toNat).isSome

/-- The decode order of R3. -/
def route (d : Decoder) (r : Request) : Route :=
  let a := r.addr.toNat
  if badShape d r then .refuse
  else if r.lock && !isBayRequest d r then .refuse
  else if d.setupBase ≤ a && (rolesTouched (a - d.setupBase) r.access.length).any (fun x => x != .plain) then
    match r.access with
    | .read _ => .plain
    | .write ws => routeSetupWrite (a - d.setupBase) ws
  else if d.mode = .pass then .plain
  else (routeWindow d.mode d.windows a r.access).getD .plain

end Sys2Proof.Machine
end

