-- ==== Sys2Proof/Machine/Flags.lean ====
section
/-! DEFINITION. The words the part composes about itself: causes and cause word (R166), status block (R196), result
word (R190) and notice entries (R154-R156). -/

namespace Sys2Proof.Machine

/-! ## Causes (R166) -/

/-- COMMAND_DONE is present while the mailbox is DONE. -/
def causeCommandDone (s : State) : Bool := s.mailbox.state == .done

/-- RING_NOT_EMPTY is present while the producer index differs from the consumer copy. -/
def causeRing (s : State) : Bool := s.ring.producer != s.ring.consumer

/-- FEEDER_NOT_ACTIVE is present while any feeder is TRIPPED or RESTORING. -/
def causeFeeder (s : State) : Bool := s.feeders.any fun f => f.state != .active

/-- Some cause is present. -/
def causeAny (s : State) : Bool := causeCommandDone s || causeRing s || causeFeeder s

/-- The present cause of highest priority, 0 for none. -/
def firstCause (s : State) : BitVec 2 :=
  if causeCommandDone s then 1 else if causeRing s then 2 else if causeFeeder s then 3 else 0

/-! ## The status block (R196) -/

/-- Mode codes. -/
def Mode.code : Mode → BitVec 2
  | .pass => 0
  | .run => 1
  | .halted => 2

/-- Mailbox state codes. -/
def MailboxState.code : MailboxState → BitVec 2
  | .idle => 0
  | .busy => 1
  | .done => 2

/-- Result codes, 0 for none (R190, R196). -/
def resultCode : Option Result → BitVec 4
  | none => 0
  | some .ok => 1
  | some .badArg => 2
  | some .badState => 3
  | some .notFound => 4

/-- Feeder state codes. -/
def FeederState.code : FeederState → BitVec 2
  | .active => 0
  | .tripped => 1
  | .restoring => 2

/-- A feeder word (R123, R196). -/
def Feeder.word (f : Feeder) : Word :=
  f.state.code ++ BitVec.ofNat 4 f.capacity ++ BitVec.ofNat 4 f.grants.length ++ BitVec.ofNat 8 f.selfCount
    ++ BitVec.ofNat 8 f.queue.length ++ (0 : BitVec 6)

/-- s0: generation, mode, mailbox state, last result, last command code. -/
def statusWord0 (s : State) : Word :=
  s.status.generation ++ s.decoder.mode.code ++ s.mailbox.state.code ++ resultCode s.mailbox.lastResult
    ++ s.mailbox.lastCode

/-- s1: inbox fill, delayed entries in use, lock holder and bay. -/
def statusWord1 (s : State) : Word :=
  BitVec.ofNat 5 s.inbox.length ++ BitVec.ofNat 3 s.access.table.length ++ flagBit s.access.lock.isSome
    ++ BitVec.ofNat 3 ((s.access.lock.map fun l => l.holder.val).getD 0)
    ++ BitVec.ofNat 8 ((s.access.lock.map fun l => l.bay.val).getD 0) ++ (0 : BitVec 12)

/-- s3: indices and cause word. -/
def statusWord3 (s : State) : Word :=
  s.ring.producer ++ s.ring.consumer ++ flagBit (causeCommandDone s) ++ flagBit (causeRing s)
    ++ flagBit (causeFeeder s) ++ firstCause s ++ (0 : BitVec 11)

/-- s18: Tag Map entries, Unknown Tag List entries, memory size. -/
def statusWord18 (s : State) : Word :=
  BitVec.ofNat 8 s.link.tagMap.length ++ BitVec.ofNat 5 (s.link.unknown.toList.countP Option.isSome)
    ++ s.decoder.memSize ++ (0 : BitVec 17)

/-- Status words s0-s7, burst 1. -/
def statusBurst1 (s : State) : List Word :=
  [statusWord0 s, statusWord1 s, s.now, statusWord3 s, (s.feeder 0).word, (s.feeder 1).word, (s.feeder 2).word,
   (s.feeder 3).word]

/-- Status words s8-s15, burst 2. -/
def statusBurst2 (s : State) : List Word :=
  [(s.feeder 4).word, (s.feeder 5).word, (s.feeder 6).word, (s.feeder 7).word,
   s.counters.framesTaken ++ s.counters.badCheck, s.counters.duplicates ++ s.counters.gaps,
   s.counters.outOfOrder ++ s.counters.superseded, s.counters.unmappedFrames ++ s.counters.unknownOverflow]

/-- Status words s16-s19, burst 3. -/
def statusBurst3 (s : State) : List Word :=
  [s.counters.retriesIssued ++ s.counters.refusalsIssued, s.counters.readsReclaimed ++ s.counters.locksBroken,
   statusWord18 s, s.status.generation ++ (0 : BitVec 16)]

/-- Burst 1, 2 or 3 of the status block as the part's state stands (R195). -/
def statusBurst (s : State) (number : Nat) : List Word :=
  if number = 1 then statusBurst1 s else if number = 2 then statusBurst2 s else statusBurst3 s

/-- The setup offset of a status burst: 16, 24, 32 (R10). -/
def statusOffset (number : Nat) : Nat := 8 + 8 * number

/-- The result word (R190). -/
def resultWord (m : Mailbox) : Word :=
  m.lastCode ++ resultCode m.lastResult ++ (0 : BitVec 4) ++ m.completions

/-! ## Notice entries (R154, R155, R156) -/

/-- The number of an alert or feeder code (R155). -/
def Code.number : Code → BitVec 8
  | .noStart => 1
  | .overrun => 2
  | .noStop => 3
  | .unordered => 4
  | .echoMismatch => 5
  | .low => 1
  | .critical => 2
  | .criticalNoPower => 3
  | .drop => 4
  | .refuel => 5
  | .sensor => 6
  | .openLong => 1
  | .inDefrost => 2
  | .closedAfterLong => 3
  | .silent => 1
  | .resumed => 2
  | .tracked => 3
  | .lapsed => 4
  | .tripped => 1
  | .restored => 2

/-- The detail word in its form A, B or C (R154); a count stops at 65535. -/
def Detail.word : Detail → Word
  | .order n f => n ++ feederCode f ++ (0 : BitVec 20)
  | .radio a q => a ++ q ++ (0 : BitVec 14)
  | .counts x y => BitVec.ofNat 16 (min x 65535) ++ BitVec.ofNat 16 (min y 65535)

/-- Word 0 of an entry: type, kind, code, index (R154). -/
def entryHead (type kind : BitVec 4) (code index : BitVec 8) : Word := type ++ kind ++ code ++ index ++ (0 : BitVec 8)

/-- The bay of an alert source. -/
def slotBay (i : Fin 640) : BayNo := ⟨i.val / 4, by omega⟩

/-- The kind code of an alert source: DEFROST 0, FUEL 1, DOOR 2, LINK 3. -/
def slotKind (i : Fin 640) : BitVec 4 := BitVec.ofNat 4 (i.val % 4)

/-- The order code: START 1, STOP 2 (R155). -/
def OrderKind.number : OrderKind → BitVec 8
  | .start => 1
  | .stop => 2

/-- The words of an alert or feeder condition's entry. -/
def conditionEntry (type kind : BitVec 4) (index : BitVec 8) (c : Condition) : List Word :=
  [entryHead type kind c.code.number index, c.time, c.detail.word, c.value]

/-- The ORDER entry of a bay whose order became pending at `t`, as the Bay Table stands (R85, R156). -/
def orderEntry (b : BayNo) (e : BayEntry) (t : Time) : List Word :=
  match e.defrost.pending with
  | some o =>
    [entryHead 1 0 o.kind.number (BitVec.ofNat 8 b.val), t, (Detail.order e.defrost.orderNumber o.feeder).word,
     (e.radio.getD 0).setWidth 32]
  | none => [0, t, 0, 0]

/-- The TAG entry of an Unknown Tag List place, as the list stands (R52, R156). -/
def tagEntryWords (place : Fin 16) (u : Option UnknownEntry) : List Word :=
  match u with
  | some x =>
    [entryHead 4 0 1 (BitVec.ofNat 8 place.val), x.firstSeen, (Detail.radio x.radio x.firstSeq).word,
     x.seen.setWidth 32]
  | none => [0, 0, 0, 0]

/-- The words of the entry a source is claimed with (R152, R156). -/
def entryWords (s : State) : Source → List Word
  | .order b => orderEntry b (s.bay b) (((s.sources.orders.find? fun e => e.1 == b).map Prod.snd).getD 0)
  | .feeder f =>
    match s.sources.feeders[f] with
    | some c => conditionEntry 3 0 (BitVec.ofNat 8 f.val) c
    | none => [0, 0, 0, 0]
  | .tag k => tagEntryWords k s.link.unknown[k]
  | .alert i =>
    match s.sources.alerts[i] with
    | some c => conditionEntry 2 (slotKind i) (BitVec.ofNat 8 (slotBay i).val) c
    | none => [0, 0, 0, 0]

end Sys2Proof.Machine
end

