-- ==== Sys2Proof/Machine/Notice.lean ====
section
/-! DEFINITION. The Notice Writer's claim and the Status Writer's presentations, and `settle`, which makes both at the
end of a step (R152, R160, R161, R195). -/

namespace Sys2Proof.Machine

/-! ## Choosing a source (R159-R161) -/

/-- The number of unconsumed entries (R151). -/
def Ring.unconsumed (r : Ring) : Nat := (r.producer - r.consumer).toNat

/-- A source is blocked while the shadow holds a slot with it (R159). -/
def Ring.blocked (r : Ring) (x : Source) : Bool := r.shadow.toList.any fun y => y == some x

/-- A source that may be claimed, seen as one element of a table: pending and not blocked. -/
def eligibleFrom (r : Ring) (mk : Nat → Source) : Nat → List Bool → Option Source
  | _, [] => none
  | i, p :: rest => if p && !r.blocked (mk i) then some (mk i) else eligibleFrom r mk (i + 1) rest

/-- The pending, unblocked feeder source with the lowest number. -/
def chooseFeeder (q : Sources) (r : Ring) : Option Source :=
  eligibleFrom r (fun i => .feeder (Fin.ofNat 8 i)) 0 (q.feeders.toList.map Option.isSome)

/-- The pending, unblocked TAG source with the lowest place. -/
def chooseTag (q : Sources) (r : Ring) : Option Source :=
  eligibleFrom r (fun i => .tag (Fin.ofNat 16 i)) 0 q.tags.toList

/-- The alert scan: from the source after the scan position, at most once round (R161). -/
def chooseAlert (q : Sources) (r : Ring) : Option Source :=
  let flags := q.alerts.toList.map Option.isSome
  let mk := fun i => Source.alert (Fin.ofNat 640 i)
  (eligibleFrom r mk (r.scan.val + 1) (flags.drop (r.scan.val + 1))).or
    (eligibleFrom r mk 0 (flags.take (r.scan.val + 1)))

/-- The source a claim takes: the head of the order list, then feeder, TAG and alert sources (R160). -/
def chooseSource (q : Sources) (r : Ring) : Option Source :=
  match q.orders with
  | (b, _) :: _ => some (.order b)
  | [] => ((chooseFeeder q r).or (chooseTag q r)).or (chooseAlert q r)

/-- The source to claim, when the four conditions of R160 hold. -/
def noticeReady (s : State) : Option Source :=
  if s.decoder.mode != .pass && s.ring.inFlight.isNone && s.ring.unconsumed != 255 then
    chooseSource s.sources s.ring
  else none

/-- Clear the pending condition of a claimed source (R152). -/
def Sources.clear (q : Sources) : Source → Sources
  | .order b => q.orderLeaves b
  | .feeder f => { q with feeders := q.feeders.set f none }
  | .tag k => { q with tags := q.tags.set k false }
  | .alert i => { q with alerts := q.alerts.set i none }

/-- A claimed order leaves the bay's pending-order slot (R85, R152). -/
def clearOrder (s : State) : Source → State
  | .order b =>
    let e := s.bay b
    s.setBay b { e with defrost := { e.defrost with pending := none } }
  | .feeder _ | .tag _ | .alert _ => s

/-- The scan position after a claim (R161). -/
def Ring.scanAfter (r : Ring) : Source → Fin 640
  | .alert i => i
  | .order _ | .feeder _ | .tag _ => r.scan

/-- The slot the producer index names. -/
def Ring.slot (r : Ring) : Fin 256 := ⟨r.producer.toNat, r.producer.isLt⟩

/-- A claim of slot p for a source (R152). -/
def claim (s : State) (x : Source) : State :=
  { clearOrder s x with
    sources := s.sources.clear x
    ring :=
      { s.ring with
        shadow := s.ring.shadow.set s.ring.slot (some x)
        scan := s.ring.scanAfter x
        inFlight := some (entryWords s x) } }

/-- Claim if a claim is to be made (R160). -/
def noticeSettle (s : State) : State :=
  match noticeReady s with
  | some x => claim s x
  | none => s

/-! ## The Status Writer (R195) -/

/-- Present a burst of the rewrite in progress, composed as the state stands. -/
def presentBlock (s : State) (number : Nat) : State :=
  { s with
    status :=
      { s.status with
        rewrite := some number
        presented := some (.block number (statusBurst s number))
        causeShown := if number = 1 then causeAny s else s.status.causeShown } }

/-- Present the result word burst. -/
def presentResult (s : State) : State :=
  { s with
    status := { s.status with resultPending := false, presented := some (.result (resultWord s.mailbox)) } }

/-- Begin a wanted rewrite with a new generation (R195). -/
def beginRewrite (s : State) : State :=
  presentBlock
    { s with status := { s.status with wanted := false, generation := s.status.generation + 1 } } 1

/-- A wanted rewrite begins while a burst is presented and no rewrite is in progress, as it does while a result word
burst is under way: its burst 1 is presented, and composed, when that burst has completed (R195; log 32). -/
def beginUnderBurst (s : State) : State :=
  if s.status.rewrite.isNone && s.status.wanted then
    { s with
      status := { s.status with wanted := false, generation := s.status.generation + 1, rewrite := some 1 } }
  else s

/-- With no burst presented, present what waits: within a rewrite the result word goes ahead of the next status burst;
outside one a wanted rewrite begins first (R195). With a burst presented, a wanted rewrite begins if none is in
progress (R195; log 32). -/
def statusSettle (s : State) : State :=
  if s.status.presented.isSome then beginUnderBurst s
  else
    match s.status.rewrite with
    | some n => if s.status.resultPending then presentResult s else presentBlock s n
    | none =>
      if s.status.wanted then beginRewrite s
      else if s.status.resultPending then presentResult s
      else s

/-- What the Notice Writer and the Status Writer do at the end of every step (R160, R195; log 14). -/
def settle (s : State) : State := statusSettle (noticeSettle s)

end Sys2Proof.Machine
end

