-- ==== Sys2Proof/Machine/Link.lean ====
section
/-! DEFINITION. The Link Tracker's judgement of one taken frame (R40-R52), up to the handing on. -/

namespace Sys2Proof.Machine

/-! ## Tag Map and Unknown Tag List -/

/-- The Tag Map entry of a radio address (R36). -/
def LinkTracker.entryOf (l : LinkTracker) (a : RadioAddr) : Option TagEntry := l.tagMap.find? fun t => t.radio == a

/-- The Tag Map entry that names a bay (R36). -/
def LinkTracker.entryAt (l : LinkTracker) (b : BayNo) : Option TagEntry := l.tagMap.find? fun t => t.bay == b

/-- Replace the Tag Map entry of a radio address. -/
def LinkTracker.setEntry (l : LinkTracker) (t : TagEntry) : LinkTracker :=
  { l with tagMap := l.tagMap.map fun x => if x.radio == t.radio then t else x }

/-- The place of an Unknown Tag List entry that satisfies a test, counted from `i`. -/
def placeWhere (p : Option UnknownEntry → Bool) : Nat → List (Option UnknownEntry) → Option (Fin 16)
  | _, [] => none
  | i, x :: rest => if p x then some (Fin.ofNat 16 i) else placeWhere p (i + 1) rest

/-- The place that lists a radio address (R51). -/
def LinkTracker.listedAt (l : LinkTracker) (a : RadioAddr) : Option (Fin 16) :=
  placeWhere (fun x => x.any fun u => u.radio == a) 0 l.unknown.toList

/-- The lowest-numbered empty place (R52). -/
def LinkTracker.freePlace (l : LinkTracker) : Option (Fin 16) := placeWhere Option.isNone 0 l.unknown.toList

/-! ## Injection (R41) -/

/-- The injection that applies to a frame of radio `a`, if any. -/
def LinkTracker.injectionFor (l : LinkTracker) (a : RadioAddr) : Option InjectKind :=
  match l.injection with
  | some (r, k) => if r = a then some k else none
  | none => none

/-- The treated sequence of a frame: SKIP adds one (R41). -/
def treatedSeq (inj : Option InjectKind) (f : Frame) : Seq := if inj = some .skip then f.seq + 1 else f.seq

/-- The verdict on a frame: BAD_CHECK makes it bad (R40, R41). -/
def verdict (inj : Option InjectKind) (e : InboxEntry) : Bool := inj != some .badCheck && e.frame.good e.radio

/-! ## A mapped frame (R43-R46) -/

/-- What a take makes of a mapped frame. -/
structure Take where
  entry : TagEntry
  counters : Counters
  handOn : Bool
  raised : Option Code

/-- Counting a bad frame. -/
def Counters.bad (c : Counters) : Counters := { c with badCheck := satAdd c.badCheck 1 }

/-- Counting a duplicate. -/
def Counters.duplicate (c : Counters) : Counters := { c with duplicates := satAdd c.duplicates 1 }

/-- In HUNT (R43). -/
def takeInHunt (t : TagEntry) (c : Counters) (good : Bool) (s : Seq) : Take :=
  if good then ⟨{ t with track := .proving, proof := 1, lastSeq := s }, c, false, none⟩
  else ⟨t, c.bad, false, none⟩

/-- In PROVING (R44, R47). -/
def takeInProving (p : Params) (t : TagEntry) (c : Counters) (good : Bool) (s : Seq) : Take :=
  if !good then ⟨{ t with track := .hunt, proof := 0 }, c.bad, false, none⟩
  else if s = t.lastSeq then ⟨t, c.duplicate, false, none⟩
  else if s = t.lastSeq + 1 then
    if p.proofCount ≤ t.proof + 1 then
      ⟨{ t with track := .tracked, proof := 0, bad := 0, lastSeq := s }, c, true, some .tracked⟩
    else ⟨{ t with proof := t.proof + 1, lastSeq := s }, c, false, none⟩
  else ⟨{ t with proof := 1, lastSeq := s }, c, false, none⟩

/-- A good frame in TRACKED, by the distance of its sequence (R45). -/
def takeGoodTracked (t : TagEntry) (c : Counters) (s : Seq) : Take :=
  let d := (s - t.lastSeq).toNat
  if d = 0 then ⟨t, c.duplicate, false, none⟩
  else if d ≤ 16 then
    ⟨{ t with lastSeq := s, bad := 0 }, { c with gaps := satAdd c.gaps (d - 1) }, true, none⟩
  else ⟨t, { c with outOfOrder := satAdd c.outOfOrder 1 }, false, none⟩

/-- A bad frame in TRACKED (R46, R47). -/
def takeBadTracked (p : Params) (t : TagEntry) (c : Counters) : Take :=
  if p.lapseCount ≤ t.bad + 1 then
    ⟨{ t with track := .hunt, bad := 0, proof := 0 }, c.bad, false, some .lapsed⟩
  else ⟨{ t with bad := t.bad + 1 }, c.bad, false, none⟩

/-- A mapped frame by its entry's track state (R40, step 4). -/
def takeMapped (p : Params) (t : TagEntry) (c : Counters) (good : Bool) (s : Seq) : Take :=
  match t.track with
  | .hunt => takeInHunt t c good s
  | .proving => takeInProving p t c good s
  | .tracked => if good then takeGoodTracked t c s else takeBadTracked p t c

/-- The LINK condition of a take that changed the track state (R48). -/
def linkCondition (p : Params) (code : Code) (t : TagEntry) (arrival : Time) : Condition where
  code := code
  time := arrival
  detail := .radio t.radio t.lastSeq
  value := BitVec.ofNat 32 (if code = .tracked then p.proofCount else p.lapseCount)

/-! ## An unmapped frame (R50, R52) -/

/-- An unmapped frame of a radio address: counted, and a good one is listed, counted in its entry, or overflows. -/
def takeUnmapped (s : State) (e : InboxEntry) (good : Bool) (seq : Seq) : State :=
  let c := { s.counters with unmappedFrames := satAdd s.counters.unmappedFrames 1 }
  if !good then s.count c.bad
  else
    match s.link.listedAt e.radio with
    | some k =>
      { s.count c with
        link :=
          { s.link with
            unknown := s.link.unknown.set k (s.link.unknown[k].map fun u => { u with seen := satAdd u.seen 1 }) } }
    | none =>
      match s.link.freePlace with
      | some k =>
        { s.count c with
          link := { s.link with unknown := s.link.unknown.set k (some ⟨e.radio, e.arrival, seq, 1⟩) }
          sources := { s.sources with tags := s.sources.tags.set k true } }
      | none => s.count { c with unknownOverflow := satAdd c.unknownOverflow 1 }

end Sys2Proof.Machine
end

