-- ==== Sys2Proof/Machine/Defrost.lean ====
section
/-! DEFINITION. The changes a bay update makes in the bay's entry, with what it reports and raises: the defrost record's
transitions (R81-R104). -/

namespace Sys2Proof.Machine

/-! ## A bay update under way -/

/-- A change reported to the Feeder Arbiter (R82, R110, R113). `mayBeEligible` reports a cleared silent flag (R75). -/
inductive Report where
  | directGrant (f : FeederNo)
  | leaveQueue (f : FeederNo)
  | release (f : FeederNo)
  | selfLeave (f : FeederNo)
  | selfJoin (f : FeederNo)
  | joinQueue (f : FeederNo) (t : Time)
  | mayBeEligible (f : FeederNo)
  deriving DecidableEq, Repr

/-- What the Notice Writer is told of the bay's pending order (R84, R158). -/
inductive OrderTell where
  | pends
  | withdrawn
  deriving DecidableEq, Repr

/-- A bay update being made: the entry as changed so far, and what is to be reported, told and raised, in order. -/
structure Work where
  bay : BayEntry
  reports : List Report
  orders : List OrderTell
  conds : List (AlertKind × Condition)

/-- What the update reads beside the entry: parameters, "now" (the yard time at its beginning), and whether the assigned
feeder is ACTIVE with room (R113). -/
structure Ctx where
  params : Params
  now : Time
  room : Bool

/-- A work that has changed nothing. -/
def Work.start (e : BayEntry) : Work := ⟨e, [], [], []⟩

/-- Add a report. -/
def Work.report (w : Work) (r : Report) : Work := { w with reports := w.reports ++ [r] }

/-- Raise an alert condition. -/
def Work.raises (w : Work) (k : AlertKind) (c : Condition) : Work := { w with conds := w.conds ++ [(k, c)] }

/-- Change the defrost record. -/
def Work.defrost (w : Work) (d : DefrostRecord) : Work := { w with bay := { w.bay with defrost := d } }

/-! ## Timers and stale expiries (R57, R68; log 23) -/

/-- Starting or stopping a timer makes every expiry of it that still waits stale. -/
def BayEvent.markStale (t : BayTimer) : BayEvent → BayEvent
  | .expiry u stale => .expiry u (stale || u == t)
  | .revocation => .revocation
  | .handOffFrame => .handOffFrame
  | .deferredFrame f => .deferredFrame f
  | .command => .command

/-- Mark the waiting and held expiries of a timer stale. -/
def BayEntry.markStale (e : BayEntry) (t : BayTimer) : BayEntry :=
  { e with waiting := e.waiting.map (BayEvent.markStale t), held := e.held.map (BayEvent.markStale t) }

/-- Put a timer without marking expiries: the timer's own expiry (R57). -/
def BayEntry.putTimer (e : BayEntry) (t : BayTimer) (x : Timer) : BayEntry :=
  match t with
  | .silence => { e with silence := x }
  | .defrost => { e with defrost := { e.defrost with timer := x } }
  | .door => { e with door := { e.door with timer := x } }

/-- Read a timer. -/
def BayEntry.timer (e : BayEntry) : BayTimer → Timer
  | .silence => e.silence
  | .defrost => e.defrost.timer
  | .door => e.door.timer

/-- Start or stop a timer. -/
def BayEntry.setTimer (e : BayEntry) (t : BayTimer) (x : Timer) : BayEntry := (e.markStale t).putTimer t x

/-- Start a timer with `n` seconds. -/
def Timer.start (n : Nat) : Timer := .running n n

/-- Start or stop a timer of the bay. -/
def Work.setTimer (w : Work) (t : BayTimer) (x : Timer) : Work := { w with bay := w.bay.setTimer t x }

/-- The length a timer was started with. -/
def Timer.length : Timer → Nat
  | .running _ n => n
  | .expired n => n
  | .stopped => 0

/-! ## Orders (R83, R84) -/

/-- The order number after one: 255 is followed by 1 (R83). -/
def nextOrderNumber (n : BitVec 8) : BitVec 8 := if n = 255 then 1 else n + 1

/-- An order becomes pending with the grant feeder `f` (R83, R84). -/
def Work.pendOrder (w : Work) (k : OrderKind) (f : Option FeederNo) : Work :=
  let d := w.bay.defrost
  { w.defrost { d with orderNumber := nextOrderNumber d.orderNumber, lastKind := some k, pending := some ⟨k, f⟩ } with
    orders := w.orders ++ [.pends] }

/-- The pending order is a START. -/
def DefrostRecord.startPending (d : DefrostRecord) : Bool := d.pending.any fun o => o.kind == .start

/-- A START still pending is withdrawn (R84). -/
def Work.withdrawStart (w : Work) : Work :=
  if w.bay.defrost.startPending then
    { w.defrost { w.bay.defrost with pending := none } with orders := w.orders ++ [.withdrawn] }
  else w

/-- Any pending order is withdrawn (R84, UNMAP_TAG). -/
def Work.withdrawOrder (w : Work) : Work :=
  if w.bay.defrost.pending.isSome then
    { w.defrost { w.bay.defrost with pending := none } with orders := w.orders ++ [.withdrawn] }
  else w

/-! ## Leaving and entering a state (R81) -/

/-- The bay's grant is released: a feeder grant is reported, the grant feeder becomes none, a pending START is
withdrawn (R81). -/
def Work.release (w : Work) : Work :=
  let w1 :=
    match w.bay.defrost.grantFeeder with
    | some f => w.report (.release f)
    | none => w
  (w1.defrost { w1.bay.defrost with grantFeeder := none }).withdrawStart

/-- A state in which a bay holds a grant. -/
def DefrostState.granted : DefrostState → Bool
  | .ordered | .running | .stopping => true
  | .idle | .due | .draining | .self => false

/-- The effects of leaving the state the bay is in, toward `new` (R81). The DUE reason goes back to QUEUED (log 16). -/
def Work.leave (w : Work) (new : DefrostState) : Work :=
  match w.bay.defrost.state with
  | .due =>
    let w1 := if w.bay.defrost.reason = .queued then w.report (.leaveQueue w.bay.feeder) else w
    w1.defrost { w1.bay.defrost with reason := .queued }
  | .ordered | .running | .stopping => if new.granted then w else w.release
  | .self => w.report (.selfLeave w.bay.feeder)
  | .idle | .draining => w

/-- The effects of entering a state (R81). -/
def Work.enter (p : Params) (new : DefrostState) (w : Work) : Work :=
  let w1 := w.defrost { w.bay.defrost with state := new }
  match new with
  | .idle =>
    (w1.defrost { w1.bay.defrost with attempts := 0, iceCount := 0, grantFeeder := none }).setTimer .defrost .stopped
  | .due => w1.setTimer .defrost .stopped
  | .ordered => (w1.setTimer .defrost (.start p.startWindow)).pendOrder .start w1.bay.defrost.grantFeeder
  | .running => w1.setTimer .defrost (.start p.maxDefrost)
  | .stopping => (w1.setTimer .defrost (.start p.stopWindow)).pendOrder .stop w1.bay.defrost.grantFeeder
  | .draining => w1.setTimer .defrost (.start p.drainTime)
  | .self => (w1.setTimer .defrost .stopped).report (.selfJoin w1.bay.feeder)

/-- A change of defrost state; with drain time 0 DRAINING becomes IDLE (R81). -/
def Work.moveTo (p : Params) (new : DefrostState) (w : Work) : Work :=
  let new' := if new = .draining ∧ p.drainTime = 0 then .idle else new
  (w.leave new').enter p new'

/-! ## Power routing (R89, R90) -/

/-- An engine grant may be given: shore power absent is judged by the caller (R89, R134). -/
def BayEntry.engineReady (e : BayEntry) : Bool := e.kind == .diesel && e.fuel.state == .normal

/-- Route the power of a bay in DUE that stands in no queue (R89). -/
def Work.routePower (c : Ctx) (w : Work) : Work :=
  let d := w.bay.defrost
  if w.bay.readingHeld && w.bay.reading.shorePower then
    (w.defrost { d with reason := .queued }).report (.joinQueue w.bay.feeder c.now)
  else if w.bay.readingHeld && w.bay.engineReady then
    (w.defrost { d with reason := .queued, grantFeeder := none }).enter c.params .ordered
  else w.defrost { d with reason := .held }

/-- Enter DUE and route (R89). -/
def Work.enterDue (c : Ctx) (w : Work) : Work := (w.moveTo c.params .due).routePower c

/-- Demand moves the bay to DUE and clears the ice count (R88, R103). -/
def Work.demand (c : Ctx) (w : Work) : Work :=
  Work.enterDue c (w.defrost { w.bay.defrost with iceCount := 0 })

/-- In DUE a heater-off frame re-judges the power (R90). -/
def Work.reroute (c : Ctx) (w : Work) : Work :=
  let d := w.bay.defrost
  if d.reason = .queued then
    if w.bay.reading.shorePower then w
    else ((w.defrost { d with reason := .held }).report (.leaveQueue w.bay.feeder)).routePower c
  else w.routePower c

/-! ## Conditions (R86) -/

/-- A DEFROST condition in the order form. -/
def orderCondition (code : Code) (time : Time) (number : BitVec 8) (f : Option FeederNo) (value : Nat) : Condition :=
  ⟨code, time, .order number f, BitVec.ofNat 32 value⟩

/-- A condition in the radio form of the bay's radio address and last sequence. -/
def BayEntry.radioCondition (e : BayEntry) (code : Code) (time : Time) (value : Word) : Condition :=
  ⟨code, time, .radio (e.radio.getD 0) e.reading.seq, value⟩

/-- The unit heats without a grant: SELF with UNORDERED, whose value codes the state left (R86, R94, R95). -/
def Work.unordered (c : Ctx) (w : Work) : Work :=
  (w.raises .defrost
      (w.bay.radioCondition .unordered w.bay.reading.arrival (w.bay.defrost.state.code.setWidth 32))).moveTo
    c.params .self

/-! ## The defrost stage (R87, R88, R93-R98) -/

/-- The frame just stored shows an iced coil (R87). -/
def BayEntry.iced (e : BayEntry) : Bool :=
  e.reading.coil.toInt ≤ 10 * e.settings.coilIcePoint.toInt
    && e.reading.returnAir.toInt - e.reading.supplyAir.toInt ≤ e.settings.iceMargin.toNat
    && !e.reading.defrostActive

/-- Update the ice count (R87). -/
def Work.countIce (w : Work) : Work :=
  w.defrost { w.bay.defrost with iceCount := if w.bay.iced then min 8 (w.bay.defrost.iceCount + 1) else 0 }

/-- The interval since the last defrost has run out (R88). -/
def BayEntry.intervalDemand (e : BayEntry) : Bool :=
  let reference := e.defrost.lastEnd.getD e.occStart
  e.settings.defrostInterval.toNat * 60 ≤ (e.reading.arrival - reference).toNat

/-- The frame raises demand (R88). -/
def BayEntry.wantsDefrost (p : Params) (e : BayEntry) : Bool :=
  e.intervalDemand || p.iceConfirm ≤ e.defrost.iceCount

/-- A late start: the echo is the bay's order number and its last order was a START (R95). -/
def BayEntry.lateStart (e : BayEntry) : Bool :=
  e.reading.echo == e.defrost.orderNumber && e.defrost.lastKind == some .start

/-- A bay holds an engine grant (R92). -/
def DefrostRecord.engineGrant (d : DefrostRecord) : Bool := d.state.granted && d.grantFeeder.isNone

/-- IDLE (R94). -/
def Work.stageIdle (c : Ctx) (w : Work) : Work :=
  if w.bay.reading.defrostActive then w.unordered c
  else if w.bay.wantsDefrost c.params then w.demand c
  else w

/-- DRAINING (R94). -/
def Work.stageDraining (c : Ctx) (w : Work) : Work :=
  if w.bay.reading.defrostActive then w.unordered c else w

/-- A late start in DUE (R95, R113). -/
def Work.stageLateStart (c : Ctx) (w : Work) : Work :=
  let d := w.bay.defrost
  if w.bay.reading.shorePower then
    if c.room then
      ((w.defrost { d with reason := .queued, grantFeeder := some w.bay.feeder }).report
        (.directGrant w.bay.feeder)).enter c.params .running
    else w.unordered c
  else if w.bay.engineReady then (w.defrost { d with grantFeeder := none }).moveTo c.params .running
  else w.unordered c

/-- DUE (R95). -/
def Work.stageDue (c : Ctx) (w : Work) : Work :=
  if w.bay.reading.defrostActive then
    if w.bay.lateStart then w.stageLateStart c else w.unordered c
  else w.reroute c

/-- ORDERED (R96). -/
def Work.stageOrdered (c : Ctx) (w : Work) : Work :=
  let d := w.bay.defrost
  if d.engineGrant && w.bay.fuel.state != .normal then w.moveTo c.params .stopping
  else if w.bay.reading.defrostActive then
    if w.bay.reading.echo = d.orderNumber then w.moveTo c.params .running
    else
      (w.raises .defrost
          (orderCondition .echoMismatch w.bay.reading.arrival d.orderNumber d.grantFeeder
            w.bay.reading.echo.toNat)).moveTo c.params .running
  else w

/-- The defrost has ended (R97, R98). -/
def Work.defrostEnds (c : Ctx) (w : Work) : Work :=
  (w.defrost { w.bay.defrost with lastEnd := some w.bay.reading.arrival, attempts := 0 }).moveTo c.params .draining

/-- RUNNING (R97). -/
def Work.stageRunning (c : Ctx) (w : Work) : Work :=
  if !w.bay.reading.defrostActive then w.defrostEnds c
  else if w.bay.defrost.engineGrant && w.bay.fuel.state != .normal then w.moveTo c.params .stopping
  else w

/-- STOPPING and SELF (R97, R98). -/
def Work.stageHeating (c : Ctx) (w : Work) : Work :=
  if !w.bay.reading.defrostActive then w.defrostEnds c else w

/-- The defrost stage: the ice count, then at most one transition by the state found (R93). -/
def Work.defrostStage (c : Ctx) (w : Work) : Work :=
  let w1 := w.countIce
  match w1.bay.defrost.state with
  | .idle => w1.stageIdle c
  | .draining => w1.stageDraining c
  | .due => w1.stageDue c
  | .ordered => w1.stageOrdered c
  | .running => w1.stageRunning c
  | .stopping | .self => w1.stageHeating c

/-! ## Timer expiries (R99-R102) -/

/-- The start window's expiry (R99). -/
def Work.startWindowExpires (c : Ctx) (w : Work) : Work :=
  let d := w.bay.defrost
  let attempts := d.attempts + 1
  let w1 := w.defrost { d with attempts := attempts }
  if attempts < c.params.maxAttempts then w1.enterDue c
  else
    (w1.defrost { w1.bay.defrost with lastEnd := some c.now }
        |>.raises .defrost (orderCondition .noStart c.now d.orderNumber d.grantFeeder attempts)).moveTo
      c.params .idle

/-- The max defrost expiry (R100): OVERRUN carries the new STOP's number. -/
def Work.maxDefrostExpires (c : Ctx) (w : Work) : Work :=
  let w1 := w.moveTo c.params .stopping
  w1.raises .defrost
    (orderCondition .overrun c.now w1.bay.defrost.orderNumber w1.bay.defrost.grantFeeder w.bay.defrost.timer.length)

/-- The stop window expiry (R101): NO_STOP carries the released grant feeder. -/
def Work.stopWindowExpires (c : Ctx) (w : Work) : Work :=
  let d := w.bay.defrost
  (w.raises .defrost (orderCondition .noStop c.now d.orderNumber d.grantFeeder d.timer.length)).moveTo c.params .self

/-- The drain time expiry (R102). -/
def Work.drainExpires (c : Ctx) (w : Work) : Work := w.moveTo c.params .idle

/-! ## Grants, revocations and commands (R91, R103, R104, R115) -/

/-- The grant update of a feeder (R91); the arbiter itself has moved the bay from queue to grant list. -/
def Work.granted (p : Params) (f : FeederNo) (w : Work) : Work :=
  (w.defrost { w.bay.defrost with grantFeeder := some f }).enter p .ordered

/-- The change of a revocation (R115): no leaving or entering effect beside those its table names. -/
def Work.revoke (f : FeederNo) (w : Work) : Work :=
  let w0 := w.defrost { w.bay.defrost with grantFeeder := none }
  let toDue (w : Work) : Work :=
    (w.defrost { w.bay.defrost with state := .due, reason := .queued }).setTimer .defrost .stopped
  let toSelf (w : Work) : Work := (w.defrost { w.bay.defrost with state := .self }).setTimer .defrost .stopped
  match w.bay.defrost.state with
  | .ordered => if w.bay.defrost.startPending then toDue w0.withdrawStart else toDue (w0.pendOrder .stop (some f))
  | .running => toSelf w0.withdrawStart
  | .stopping => toSelf w0
  | .idle | .due | .draining | .self => w

/-- FORCE_DEFROST is taken in IDLE and DRAINING (R103). -/
def DefrostState.forcible : DefrostState → Bool
  | .idle | .draining => true
  | .due | .ordered | .running | .stopping | .self => false

/-- CANCEL_DEFROST is taken in DUE, ORDERED, RUNNING and SELF (R104). -/
def DefrostState.cancellable : DefrostState → Bool
  | .due | .ordered | .running | .self => true
  | .idle | .stopping | .draining => false

/-- A taken CANCEL_DEFROST (R104). -/
def Work.cancel (c : Ctx) (w : Work) : Work :=
  let d := w.bay.defrost
  let w1 := w.defrost { d with lastEnd := some c.now }
  match d.state with
  | .due => w1.moveTo c.params .idle
  | .ordered => if d.startPending then w1.moveTo c.params .idle else w1.moveTo c.params .stopping
  | .running => w1.moveTo c.params .stopping
  | .self => w1.pendOrder .stop none
  | .idle | .stopping | .draining => w

end Sys2Proof.Machine
end

