-- ==== Sys2Proof/Machine/Fuel.lean ====
section
/-! DEFINITION. The fuel stage of an evaluation (R125-R133). -/

namespace Sys2Proof.Machine

/-- A level is valid when it is from 0 to 1000 (R124). -/
def validLevel (l : Half) : Bool := l.toNat ≤ 1000

/-- The new fuel state for a valid level (R128). -/
def fuelByLevel (x : Settings) (found : FuelState) (level : Nat) : FuelState :=
  let low := x.fuelLow.toNat
  let crit := x.fuelCritical.toNat
  let h := x.fuelHysteresis.toNat
  if level ≤ crit then .critical
  else
    match found with
    | .normal => if level ≤ low then .low else .normal
    | .low => if level < low + h then .low else .normal
    | .critical => if level < crit + h then .critical else if level < low + h then .low else .normal
    | .noSensor => if level ≤ low then .low else .normal

/-- Step 1: the new fuel state (R127, R128). -/
def BayEntry.newFuelState (e : BayEntry) : FuelState :=
  if validLevel e.reading.fuel then fuelByLevel e.settings e.fuel.state e.reading.fuel.toNat else .noSensor

/-- The state condition found on entering a fuel state (R129). -/
def stateCondition (found new : FuelState) (shorePower : Bool) : Option Code :=
  if found = new then none
  else
    match new with
    | .normal => none
    | .low => some .low
    | .critical => if shorePower then some .critical else some .criticalNoPower
    | .noSensor => some .sensor

/-- Step 2: the amount of a drop against the baseline, if there is one (R131). -/
def BayEntry.dropFound (e : BayEntry) : Option Nat :=
  match e.fuel.baseline with
  | none => none
  | some (level, time) =>
    if validLevel e.reading.fuel && !e.reading.engineRunning && (e.reading.arrival - time).toNat ≤ 900
        && e.reading.fuel.toNat + e.settings.fuelDrop.toNat ≤ level.toNat then
      some (level.toNat - e.reading.fuel.toNat)
    else none

/-- Step 3: the amount of a refuel against the baseline, if there is one (R132). -/
def BayEntry.refuelFound (e : BayEntry) : Option Nat :=
  match e.fuel.baseline with
  | none => none
  | some (level, _) =>
    if validLevel e.reading.fuel && level.toNat + 100 ≤ e.reading.fuel.toNat then
      some (e.reading.fuel.toNat - level.toNat)
    else none

/-- Step 5: the one condition raised, with its value, by the precedence of R133. -/
def fuelCondition (stateCode : Option Code) (drop refuel : Option Nat) (level : Nat) : Option (Code × Nat) :=
  match stateCode, drop, refuel with
  | some .sensor, _, _ => some (.sensor, level)
  | some .criticalNoPower, _, _ => some (.criticalNoPower, level)
  | some .critical, _, _ => some (.critical, level)
  | _, some n, _ => some (.drop, n)
  | _, _, some n => some (.refuel, n)
  | some c, none, none => some (c, level)
  | none, none, none => none

/-- The fuel stage of a DIESEL bay (R125). -/
def Work.fuelStageDiesel (w : Work) : Work :=
  let e := w.bay
  let new := e.newFuelState
  let found := fuelCondition (stateCondition e.fuel.state new e.reading.shorePower) e.dropFound e.refuelFound
    e.reading.fuel.toNat
  let baseline := if validLevel e.reading.fuel then some (e.reading.fuel, e.reading.arrival) else e.fuel.baseline
  let w1 := { w with bay := { e with fuel := ⟨new, baseline⟩ } }
  match found with
  | some (code, value) => w1.raises .fuel (e.radioCondition code e.reading.arrival (BitVec.ofNat 32 value))
  | none => w1

/-- The fuel stage; an ELECTRIC bay skips it (R126). -/
def Work.fuelStage (w : Work) : Work :=
  match w.bay.kind with
  | .diesel => w.fuelStageDiesel
  | .electric => w

end Sys2Proof.Machine
end

