-- ==== Sys2Proof/Machine/Door.lean ====
section
/-! DEFINITION. The door stage, the door timer's expiry and SET_LOADING's changes (R138-R149). -/

namespace Sys2Proof.Machine

/-- The applicable limit (R138). -/
def BayEntry.doorLimit (e : BayEntry) : Nat :=
  if e.loading then e.settings.loadingDoorLimit.toNat else e.settings.doorLimit.toNat

/-- Change the door state. -/
def Work.setDoor (w : Work) (x : DoorState) : Work := { w with bay := { w.bay with door := { w.bay.door with state := x } } }

/-- Seconds from door-open-since to a time, modulo 2^32. -/
def BayEntry.openFor (e : BayEntry) (t : Time) : Word := t - e.door.since

/-- A frame that shows a CLOSED door open (R140). -/
def Work.doorOpens (w : Work) : Work :=
  let e := w.bay
  let opened := { e with door := { e.door with state := .isOpen, since := e.reading.arrival, opens := satAdd e.door.opens 1 } }
  Work.setTimer { w with bay := opened } .door (.start e.doorLimit)

/-- IN_DEFROST is judged: this frame opens the door in RUNNING, or brings the bay into RUNNING with it open (R143). -/
def inDefrost (doorFound : DoorState) (foundDefrost leftDefrost : DefrostState) : Bool :=
  leftDefrost == .running && (doorFound == .closed || foundDefrost != .running)

/-- A frame with the door open flag 1 (R140, R141, R143). -/
def Work.doorSeenOpen (foundDefrost : DefrostState) (w : Work) : Work :=
  let w1 := if w.bay.door.state = .closed then w.doorOpens else w
  if inDefrost w.bay.door.state foundDefrost w.bay.defrost.state then
    w1.raises .door
      (w1.bay.radioCondition .inDefrost w1.bay.reading.arrival (w1.bay.openFor w1.bay.reading.arrival))
  else w1

/-- A frame with the door open flag 0 (R142). -/
def Work.doorSeenShut (w : Work) : Work :=
  match w.bay.door.state with
  | .closed => w
  | .isOpen => (w.setDoor .closed).setTimer .door .stopped
  | .openLong =>
    (w.setDoor .closed).raises .door
      (w.bay.radioCondition .closedAfterLong w.bay.reading.arrival (w.bay.openFor w.bay.reading.arrival))

/-- The door stage; `foundDefrost` is the defrost state the defrost stage found (R139). -/
def Work.doorStage (foundDefrost : DefrostState) (w : Work) : Work :=
  if w.bay.reading.doorOpen then w.doorSeenOpen foundDefrost else w.doorSeenShut

/-- The door moves to OPEN_LONG, its timer stops, and OPEN_LONG is raised (R144, R148). -/
def Work.toOpenLong (now : Time) (w : Work) : Work :=
  ((w.setDoor .openLong).setTimer .door .stopped).raises .door
    (w.bay.radioCondition .openLong now (w.bay.openFor now))

/-- The door timer's expiry (R144). -/
def Work.doorExpires (c : Ctx) (w : Work) : Work := w.toOpenLong c.now

/-- The door record judged against the new applicable limit when the loading flag has changed (R147-R149). -/
def Work.judgeLoading (c : Ctx) (w : Work) : Work :=
  let elapsed := (w.bay.openFor c.now).toNat
  let limit := w.bay.doorLimit
  match w.bay.door.state with
  | .closed => w
  | .isOpen => if limit ≤ elapsed then w.toOpenLong c.now else w.setTimer .door (.start (limit - elapsed))
  | .openLong =>
    if w.bay.loading && elapsed < limit then (w.setDoor .isOpen).setTimer .door (.start (limit - elapsed)) else w

/-- A taken SET_LOADING (R147). -/
def Work.setLoading (c : Ctx) (on : Bool) (w : Work) : Work :=
  if w.bay.loading = on then w else Work.judgeLoading c { w with bay := { w.bay with loading := on } }

end Sys2Proof.Machine
end

