-- ==== Sys2Proof/Machine/Evaluate.lean ====
section
/-! DEFINITION. Evaluating a frame (R73, R74), the silence timer (R75) and occupancy (R76, R77), as changes of one entry. -/

namespace Sys2Proof.Machine

/-- The silent flag is cleared with RESUMED, and reported, when it was on (R74, R75). -/
def Work.resume (h : HandedFrame) (w : Work) : Work :=
  if w.bay.silent then
    (({ w with bay := { w.bay with silent := false } } : Work).raises .link
      (w.bay.radioCondition .resumed h.arrival (h.arrival - w.bay.silentSince))).report (.mayBeEligible w.bay.feeder)
  else w

/-- The store stage (R74). -/
def Work.storeStage (c : Ctx) (h : HandedFrame) (w : Work) : Work :=
  let stored : Work := { w with bay := { w.bay with reading := h.reading, readingHeld := true } }
  (stored.resume h).setTimer .silence (.start c.params.silenceLimit)

/-- The stages of one evaluation before the record is composed (R73). -/
def Work.evaluate (c : Ctx) (h : HandedFrame) (w : Work) : Work :=
  let w2 := (w.storeStage c h).fuelStage
  (w2.defrostStage c).doorStage w2.bay.defrost.state

/-- The silence timer's expiry (R75). -/
def Work.silenceExpires (c : Ctx) (w : Work) : Work :=
  let e := w.bay
  let since := if e.readingHeld then e.reading.arrival else e.occStart
  (({ w with bay := { e with silent := true, silentSince := c.now } } : Work).setTimer .silence .stopped).raises .link
    (e.radioCondition .silent c.now (c.now - since))

/-- The change of a non-stale expiry, by its timer and, for the defrost timer, the defrost state; a state without a
running defrost timer changes nothing (R68, R75, R99-R102, R144). -/
def Work.expires (c : Ctx) (t : BayTimer) (w : Work) : Work :=
  match t with
  | .silence => w.silenceExpires c
  | .door => w.doorExpires c
  | .defrost =>
    match w.bay.defrost.state with
    | .ordered => w.startWindowExpires c
    | .running => w.maxDefrostExpires c
    | .stopping => w.stopWindowExpires c
    | .draining => w.drainExpires c
    | .idle | .due | .self => w

/-- Stop the three timers of a bay. -/
def BayEntry.stopTimers (e : BayEntry) : BayEntry :=
  ((e.setTimer .silence .stopped).setTimer .defrost .stopped).setTimer .door .stopped

/-- A taken MAP_TAG's changes to the entry (R76, R79, R124, R137). -/
def Work.mapTag (c : Ctx) (a : RadioAddr) (k : UnitKind) (w : Work) : Work :=
  let e := w.bay.stopTimers
  let mapped : BayEntry :=
    { e with
      occupied := true
      radio := some a
      kind := k
      occStart := c.now
      link := some .hunt
      loading := false
      silent := false
      readingHeld := false
      reading := .zero
      defrost := { DefrostRecord.reset with orderNumber := e.defrost.orderNumber }
      fuel := ⟨.normal, none⟩
      door := ⟨.closed, 0, 0, .stopped⟩ }
  Work.setTimer { w with bay := mapped } .silence (.start c.params.silenceLimit)

/-- The bay gives up its grant, queue place, self-started count and pending order (R77, R79). -/
def Work.giveUp (w : Work) : Work :=
  let w1 :=
    match w.bay.defrost.state with
    | .ordered | .running | .stopping => w.release
    | .due => if w.bay.defrost.reason = DueReason.queued then w.report (.leaveQueue w.bay.feeder) else w
    | .self => w.report (.selfLeave w.bay.feeder)
    | .idle | .draining => w
  w1.withdrawOrder

/-- A taken UNMAP_TAG's changes to the entry (R77, R79, R124, R137). -/
def Work.unmapTag (w : Work) : Work :=
  let w1 := w.giveUp
  let e := w1.bay.stopTimers
  let d := e.defrost
  { w1 with
    bay :=
      { e with
        occupied := false
        radio := none
        link := none
        loading := false
        silent := false
        defrost :=
          { DefrostRecord.reset with
            lastEnd := d.lastEnd, orderNumber := d.orderNumber, lastKind := d.lastKind }
        fuel := { e.fuel with state := .normal }
        door := { e.door with state := .closed } } }

end Sys2Proof.Machine
end

