-- ==== Sys2Proof/Machine/Update.lean ====
section
/-! DEFINITION. Beginning a bay update (R66), the Feeder Arbiter's acts on its reports (R107-R113), and the turns of a
bay's waiting events (R67-R72). -/

namespace Sys2Proof.Machine

/-! ## The Record Access Unit's begin notice (R169) -/

/-- The served bay whose record holds the words of a delayed entry. -/
def State.keyBay (s : State) (k : ReadKey) : Option BayNo := s.decoder.windows.bayAt k.addr.toNat

/-- A READY entry returns to QUEUED (R169). -/
def DelayedEntry.requeue (e : DelayedEntry) : DelayedEntry := { e with state := .queued }

/-- An outstanding read of bay `b`'s record is overtaken by an update (R171). -/
def Path.overtake (b : BayNo) : Path → Path
  | .bayRead x o => .bayRead x (o || x == b)
  | .plain => .plain
  | .settings x => .settings x
  | .argument x => .argument x
  | .commandWord => .commandWord
  | .consumerIndex => .consumerIndex

/-- The Record Access Unit learns that an update of `b`'s record begins (R169). -/
def beginNotice (b : BayNo) (s : State) : State :=
  { s with
    access :=
      { s.access with
        table := s.access.table.map fun e => if s.keyBay e.key = some b then e.requeue else e
        fetch := s.access.fetch.map fun x => if s.keyBay x.key = some b then { x with void := true } else x }
    front := { s.front with outstanding := s.front.outstanding.map fun o => { o with path := o.path.overtake b } } }

/-! ## Composing and queueing the record (R66) -/

/-- Place the two bursts of `b`'s record at the tail of the record writer's queue; `full` for MAP_TAG and UNMAP_TAG. -/
def queueRecord (b : BayNo) (full : Bool) (s : State) : State :=
  let ws := (s.bay b).recordWords b
  let a := s.decoder.windows.recordWord b
  { s with
    bursts :=
      s.bursts ++ [⟨b, a, ws.take 8, false⟩, ⟨b, a + 8, if full then ws.drop 8 else (ws.drop 8).take 4, true⟩] }

/-- Tell the Notice Writer of the changes to `b`'s pending order (R158). -/
def tellOrders (b : BayNo) (tells : List OrderTell) (s : State) : State :=
  { s with
    sources :=
      tells.foldl
        (fun q t =>
          match t with
          | .pends => q.orderPends b s.now
          | .withdrawn => q.orderLeaves b)
        s.sources }

/-- Raise the conditions of an update (R157). -/
def raiseAll (b : BayNo) (conds : List (AlertKind × Condition)) (s : State) : State :=
  { s with sources := conds.foldl (fun q c => q.raiseAlert b c.1 c.2) s.sources }

/-- The beginning of an update but for its reports: the entry, the notices, the record, the begin notice (R66). -/
def commitCore (b : BayNo) (w : Work) (full : Bool) (s : State) : State :=
  beginNotice b
    (queueRecord b full (raiseAll b w.conds (tellOrders b w.orders (s.setBay b { w.bay with inFlight := true }))))

/-- The update's work before any change: the entry with its link state copied (R49, R66). -/
def startWork (b : BayNo) (s : State) : Work :=
  Work.start { s.bay b with link := (s.link.entryAt b).map TagEntry.track }

/-! ## The Feeder Arbiter (R107-R113) -/

/-- The load of a feeder (R105). -/
def Feeder.load (x : Feeder) : Nat := x.grants.length + x.selfCount

/-- The feeder is ACTIVE with room (R105, R112). -/
def Feeder.canGrant (x : Feeder) : Bool := x.state == .active && x.load < x.capacity

/-- A bay leaves the wait queue, the others close up (R107). -/
def Feeder.unqueue (x : Feeder) (b : BayNo) : Feeder := { x with queue := x.queue.filter fun e => e.1 != b }

/-- A bay joins the back of the grant list (R108). -/
def Feeder.addGrant (x : Feeder) (b : BayNo) : Feeder := { x with grants := x.grants ++ [b] }

/-- The feeder a report concerns. -/
def Report.feeder : Report → FeederNo
  | .directGrant f => f
  | .leaveQueue f => f
  | .release f => f
  | .selfLeave f => f
  | .selfJoin f => f
  | .joinQueue f _ => f
  | .mayBeEligible f => f

/-- The change a report of bay `b` makes in its feeder's entry (R107-R109, R113). -/
def Report.change (b : BayNo) (x : Feeder) : Report → Feeder
  | .directGrant _ => (x.unqueue b).addGrant b
  | .leaveQueue _ => x.unqueue b
  | .release _ => { x with grants := x.grants.filter fun y => y != b }
  | .selfLeave _ => { x with selfCount := x.selfCount - 1 }
  | .selfJoin _ => { x with selfCount := x.selfCount + 1 }
  | .joinQueue _ t => { x with queue := x.queue ++ [(b, t)] }
  | .mayBeEligible _ => x

/-- The order in which the reports of one update are applied: a direct grant is answered first (R113), then leave-queue,
release, self-count changes, join-queue (R110). -/
def Report.rank : Report → Nat
  | .directGrant _ => 0
  | .leaveQueue _ => 1
  | .release _ => 2
  | .selfLeave _ => 3
  | .selfJoin _ => 3
  | .joinQueue _ _ => 4
  | .mayBeEligible _ => 5

/-- The reports in the order of R110. -/
def inReportOrder (rs : List Report) : List Report :=
  [0, 1, 2, 3, 4, 5].flatMap fun k => rs.filter fun r => r.rank == k

/-- Apply one report to the Feeder Table. -/
def applyReport (b : BayNo) (s : State) (r : Report) : State := s.setFeeder r.feeder (r.change b (s.feeder r.feeder))

/-- A bay that may be granted: not silent, free, not locked (R111). -/
def eligible (s : State) (b : BayNo) : Bool :=
  !(s.bay b).silent && !(s.bay b).inFlight && (s.bay b).waiting.isEmpty && !s.locked b

/-- A grant: the bay moves from the queue to the back of the grant list and its grant update begins (R91, R112). -/
def grant (f : FeederNo) (b : BayNo) (s : State) : State :=
  let s1 := s.setFeeder f (((s.feeder f).unqueue b).addGrant b)
  commitCore b ((startWork b s1).granted s1.params f) false s1

/-- Along the queue, front first, each eligible bay is granted while the feeder has room: a grant makes no bay further
forward eligible, so this is the repeated search of R112. -/
def grantPass (f : FeederNo) : List (BayNo × Time) → State → State
  | [], s => s
  | (b, _) :: rest, s => grantPass f rest (if (s.feeder f).canGrant && eligible s b then grant f b s else s)

/-- The Feeder Arbiter acts on a feeder (R112). -/
def act (f : FeederNo) (s : State) : State := grantPass f (s.feeder f).queue s

/-- The eight feeders. -/
def allFeeders : List FeederNo := [0, 1, 2, 3, 4, 5, 6, 7]

/-- Apply an update's reports as one event, then act on each feeder they touched (R110). -/
def feederReports (b : BayNo) (rs : List Report) (s : State) : State :=
  let s1 := (inReportOrder rs).foldl (applyReport b) s
  (allFeeders.filter fun f => rs.any fun r => r.feeder == f).foldl (fun s f => act f s) s1

/-- The beginning of a bay update (R66). -/
def commit (b : BayNo) (w : Work) (full : Bool) (s : State) : State :=
  feederReports b w.reports (commitCore b w full s)

/-- What an update of bay `b` reads (R73, R113). -/
def State.ctx (s : State) (b : BayNo) : Ctx := ⟨s.params, s.now, (s.feeder (s.bay b).feeder).canGrant⟩

/-- Begin an update whose change is `change`. -/
def update (b : BayNo) (change : Work → Work) (s : State) : State := commit b (change (startWork b s)) false s

/-! ## Frames at a bay (R72, R73) -/

/-- The frame is for the trailer the bay holds (R72). -/
def frameFits (e : BayEntry) (h : HandedFrame) : Bool := e.occupied && e.radio == some h.radio

/-- A frame at the head of bay `b`'s events is evaluated or discarded (R72). -/
def meetFrame (b : BayNo) (h : HandedFrame) (s : State) : State :=
  if frameFits (s.bay b) h then update b (Work.evaluate (s.ctx b) h) s else s

/-! ## Bay commands at their turn (R53-R55, R69, R103, R104, R122, R146) -/

/-- A bay command is taken: its update begins, and the command completes when it ends (R69). -/
def beginCommand (b : BayNo) (w : Work) (full : Bool) (s : State) : State :=
  commit b w full (s.setProgress (.updating b))

/-- The Tag Map and Unknown Tag List changes of a taken MAP_TAG (R54, R165). -/
def linkMap (a : RadioAddr) (b : BayNo) (s : State) : State :=
  let l := { s.link with tagMap := s.link.tagMap ++ [⟨a, b, .hunt, 0, 0, 0⟩] }
  match s.link.listedAt a with
  | some k =>
    { s with
      link := { l with unknown := l.unknown.set k none }
      sources := { s.sources with tags := s.sources.tags.set k false } }
  | none => { s with link := l }

/-- MAP_TAG at its turn (R53, R54, R76). -/
def turnMapTag (b : BayNo) (cmd : Command) (s : State) : State :=
  let a : RadioAddr := cmd.a.setWidth 10
  if (s.link.entryOf a).isSome || (s.bay b).occupied then s.finish .badState
  else
    let s1 := linkMap a b s
    beginCommand b ((startWork b s1).mapTag (s1.ctx b) a (if cmd.c = 0 then .diesel else .electric)) true s1

/-- The Link Tracker's and Notice Writer's part of a taken UNMAP_TAG (R55, R164). -/
def linkUnmap (a : RadioAddr) (b : BayNo) (s : State) : State :=
  { s with
    link := { s.link with tagMap := s.link.tagMap.filter fun t => t.radio != a }
    sources := s.sources.withdrawBay b }

/-- UNMAP_TAG at its turn (R55, R77). -/
def turnUnmapTag (b : BayNo) (cmd : Command) (s : State) : State :=
  if !(s.bay b).occupied then s.finish .badState
  else
    let s1 := linkUnmap (cmd.a.setWidth 10) b s
    beginCommand b (startWork b s1).unmapTag true s1

/-- SET_LOADING at its turn (R146, R147). -/
def turnSetLoading (b : BayNo) (cmd : Command) (s : State) : State :=
  if !(s.bay b).occupied then s.finish .badState
  else beginCommand b ((startWork b s).setLoading (s.ctx b) (cmd.b == 1)) false s

/-- FORCE_DEFROST at its turn (R103). -/
def turnForceDefrost (b : BayNo) (_cmd : Command) (s : State) : State :=
  if (s.bay b).occupied && (s.bay b).defrost.state.forcible then
    beginCommand b ((startWork b s).demand (s.ctx b)) false s
  else s.finish .badState

/-- CANCEL_DEFROST at its turn (R104). -/
def turnCancelDefrost (b : BayNo) (_cmd : Command) (s : State) : State :=
  if (s.bay b).occupied && (s.bay b).defrost.state.cancellable then
    beginCommand b ((startWork b s).cancel (s.ctx b)) false s
  else s.finish .badState

/-- ASSIGN_FEEDER at its turn (R122). -/
def turnAssignFeeder (b : BayNo) (cmd : Command) (s : State) : State :=
  if (s.bay b).occupied && (s.bay b).defrost.state.forcible then
    let w := startWork b s
    beginCommand b { w with bay := { w.bay with feeder := Fin.ofNat 8 cmd.b.toNat } } false s
  else s.finish .badState

/-- The current bay command is judged on the bay's state (R69). -/
def turnCommand (b : BayNo) (s : State) : State :=
  match s.mailbox.current with
  | none => s
  | some cmd =>
    match cmd.code.toNat with
    | 6 => turnMapTag b cmd s
    | 7 => turnUnmapTag b cmd s
    | 8 => turnSetLoading b cmd s
    | 9 => turnForceDefrost b cmd s
    | 10 => turnCancelDefrost b cmd s
    | 12 => turnAssignFeeder b cmd s
    | _ => s

/-! ## Waiting events (R67, R68) -/

/-- Empty the hand-off place (R39). -/
def State.clearHandOff (s : State) : State := { s with link := { s.link with handOff := none } }

/-- One event at the head of bay `b`'s events: it begins an update, or is dropped, discarded or refused (R67). -/
def startEvent (b : BayNo) (ev : BayEvent) (s : State) : State :=
  match ev with
  | .expiry t stale => if stale then s else update b (Work.expires (s.ctx b) t) s
  | .revocation => update b id s
  | .handOffFrame =>
    match s.link.handOff with
    | some h => meetFrame b h s.clearHandOff
    | none => s
  | .deferredFrame h => meetFrame b h s
  | .command => turnCommand b s

/-- Put a bay's waiting events. -/
def State.setWaiting (s : State) (b : BayNo) (l : List BayEvent) : State := s.setBay b { s.bay b with waiting := l }

/-- Turn to the waiting events, oldest first, until one begins an update (R67). -/
def turnList (b : BayNo) : List BayEvent → State → State
  | [], s => s
  | ev :: rest, s =>
    let s1 := startEvent b ev (s.setWaiting b rest)
    if (s1.bay b).inFlight then s1 else turnList b rest s1

/-- The Check Engine turns to the waiting events of a free, unlocked bay (R67, R71). -/
def turn (b : BayNo) (s : State) : State :=
  if (s.bay b).inFlight || s.locked b then s else turnList b (s.bay b).waiting s

/-! ## Events reaching a bay (R67, R70) -/

/-- An expiry or a revocation update reaches a bay: held while it is locked, waiting while an update is in flight. -/
def offerHeld (b : BayNo) (ev : BayEvent) (s : State) : State :=
  let e := s.bay b
  if s.locked b then s.setBay b { e with held := e.held ++ [ev] }
  else if e.inFlight then s.setWaiting b (e.waiting ++ [ev])
  else startEvent b ev s

/-- A frame just placed in the hand-off place reaches its bay (R39, R67, R70). -/
def offerFrame (h : HandedFrame) (s : State) : State :=
  let e := s.bay h.bay
  if s.locked h.bay then
    let s1 := (s.setBay h.bay { e with deferred := some h }).clearHandOff
    if e.deferred.isSome then s1.count { s1.counters with superseded := satAdd s1.counters.superseded 1 } else s1
  else if e.inFlight then s.setWaiting h.bay (e.waiting ++ [.handOffFrame])
  else startEvent h.bay .handOffFrame s

/-- A bay command judged as far as it is at once reaches its bay (R69, R70). -/
def offerCommand (b : BayNo) (s : State) : State :=
  let e := s.bay b
  if s.locked b then s.setProgress (.awaitsUnlock b)
  else if e.inFlight then (s.setWaiting b (e.waiting ++ [.command])).setProgress (.awaitsTurn b)
  else startEvent b .command (s.setProgress (.awaitsTurn b))

/-! ## The end of an update, and the release of the lock -/

/-- An update of the record of the entry's bay is in flight. -/
def State.keyInFlight (s : State) (k : ReadKey) : Bool :=
  match s.keyBay k with
  | some b => (s.bay b).inFlight
  | none => false

/-- The delayed-read fetcher judges whether to present: the oldest fetchable entry (R173). -/
def fetchJudge (s : State) : State :=
  if s.access.fetch.isSome then s
  else
    match s.access.table.find? fun e => e.state == .queued && !s.keyInFlight e.key with
    | some e => { s with access := { s.access with fetch := some ⟨e.key, false⟩ } }
    | none => s

/-- The command whose update this was completes OK (R69). -/
def finishUpdating (b : BayNo) (s : State) : State := if s.mailbox.progress = .updating b then s.finish .ok else s

/-- A bay update ends: the command it was, the waiting events, the Feeder Arbiter, the fetcher (R66, R67, R110, R169). -/
def endUpdate (b : BayNo) (s : State) : State :=
  let s1 := turn b (finishUpdating b (s.setBay b { s.bay b with inFlight := false }))
  fetchJudge (act (s1.bay b).feeder s1)

/-- The events a release makes the bay's waiting events: deferred frame, held events, waiting command (R71). -/
def releasedEvents (e : BayEntry) (commandWaits : Bool) : List BayEvent :=
  (e.deferred.map BayEvent.deferredFrame).toList ++ e.held ++ (if commandWaits then [.command] else [])

/-- The lock on bay `b` is gone: the Check Engine, the Feeder Arbiter and the Status Writer are told (R71, R183). -/
def unlocked (b : BayNo) (s : State) : State :=
  let commandWaits := s.mailbox.progress == .awaitsUnlock b
  let e := s.bay b
  let s1 := s.setBay b { e with waiting := releasedEvents e commandWaits, held := [], deferred := none }
  let s2 := turn b (if commandWaits then s1.setProgress (.awaitsTurn b) else s1)
  (act (s2.bay b).feeder s2).wantRewrite

/-- Release the Bay Lock (R181-R183). -/
def releaseLock (s : State) : State :=
  match s.access.lock with
  | some l => unlocked l.bay { s with access := { s.access with lock := none } }
  | none => s

end Sys2Proof.Machine
end

