-- ==== Sys2Proof/Machine/Mailbox.lean ====
section
/-! DEFINITION. The Command Mailbox's commands (R6, R14, R42, R69, R121, R189-R194): what each does once it is taken. -/

namespace Sys2Proof.Machine

/-! ## SET_WINDOW (R6) -/

/-- The part's windows, by argument A (R6). -/
inductive WindowName where
  | inbox
  | bays
  | ring
  deriving DecidableEq, Repr

/-- The window argument A names. -/
def windowNamed (a : Nat) : Option WindowName :=
  if a = 0 then some .inbox else if a = 1 then some .bays else if a = 2 then some .ring else none

/-- One entry of the window table. -/
def Windows.get (w : Windows) : WindowName → Window
  | .inbox => w.inbox
  | .bays => w.bays
  | .ring => w.ring

/-- Replace one entry of the window table. -/
def Windows.put (w : Windows) (x : Window) : WindowName → Windows
  | .inbox => { w with inbox := x }
  | .bays => { w with bays := x }
  | .ring => { w with ring := x }

/-- The numbers of pages a window may have (R5). -/
def pagesAllowed (n : Nat) : WindowName → Bool
  | .inbox => 1 ≤ n && n ≤ 4
  | .bays => 1 ≤ n && n ≤ 3
  | .ring => n == 1

/-- Two windows that are on share a page. -/
def Window.meets (x y : Window) : Bool := x.on && y.on && x.base ≤ y.limit && y.base ≤ x.limit

/-- A window that is on meets one of the two others. -/
def Windows.overlaps (w : Windows) (x : Window) : WindowName → Bool
  | .inbox => x.meets w.bays || x.meets w.ring
  | .bays => x.meets w.inbox || x.meets w.ring
  | .ring => x.meets w.inbox || x.meets w.bays

/-- The window SET_WINDOW sets in PASS, or `none` for BAD_ARG, by the first row of R6 that applies. -/
def newWindow (d : Decoder) (n : WindowName) (base limit : Nat) : Option Window :=
  if limit < base then some .off
  else if pagesOf d.memSize ≤ limit then none
  else if !pagesAllowed (limit - base + 1) n then none
  else if base ≤ pagesOf d.memSize - 1 && pagesOf d.memSize - 1 ≤ limit then none
  else if d.windows.overlaps ⟨base, limit⟩ n then none
  else some ⟨base, limit⟩

/-- SET_WINDOW (R6). -/
def commandSetWindow (cmd : Command) (s : State) : State :=
  if s.decoder.mode ≠ .pass then s.finish .badState
  else
    match windowNamed cmd.a.toNat with
    | none => s.finish .badArg
    | some n =>
      match newWindow s.decoder n cmd.b.toNat cmd.c.toNat with
      | none => s.finish .badArg
      | some x => State.finish { s with decoder := { s.decoder with windows := s.decoder.windows.put x n } } .ok

/-! ## SET_TIMING (R192) -/

/-- The parameters after SET_TIMING of parameter `a` to `v`, or `none` for BAD_ARG (R192). -/
def newParams (p : Params) (a v : Nat) : Option Params :=
  match a with
  | 0 => if 60 ≤ v ∧ v ≤ 3600 then some { p with silenceLimit := v } else none
  | 1 => if 30 ≤ v ∧ v ≤ 900 then some { p with startWindow := v } else none
  | 2 => if 600 ≤ v ∧ v ≤ 5400 then some { p with maxDefrost := v } else none
  | 3 => if 30 ≤ v ∧ v ≤ 900 then some { p with stopWindow := v } else none
  | 4 => if v ≤ 1800 then some { p with drainTime := v } else none
  | 5 => if v ≤ 600 then some { p with restoreDelay := v } else none
  | 6 => if 100 ≤ v ∧ v ≤ 10000 then some { p with reclaimTime := v } else none
  | 7 => if 100 ≤ v ∧ v ≤ 50000 then some { p with lockHoldLimit := v } else none
  | 8 => if 2 ≤ v ∧ v ≤ 3 then some { p with proofCount := v } else none
  | 9 => if 2 ≤ v ∧ v ≤ 8 then some { p with lapseCount := v } else none
  | 10 => if 1 ≤ v ∧ v ≤ 8 then some { p with iceConfirm := v } else none
  | 11 => if 1 ≤ v ∧ v ≤ 7 then some { p with maxAttempts := v } else none
  | _ => none

/-- SET_TIMING (R192). -/
def commandSetTiming (cmd : Command) (s : State) : State :=
  match newParams s.params cmd.a.toNat cmd.b.toNat with
  | some p => State.finish { s with params := p } .ok
  | none => s.finish .badArg

/-! ## RUN, HALT, SET_TIME and CLEAR_COUNTERS (R14, R193, R194) -/

/-- Change the mode, which asks for a status rewrite (R14, R197). -/
def State.setMode (s : State) (m : Mode) : State :=
  State.wantRewrite { s with decoder := { s.decoder with mode := m } }

/-- All three windows are on. -/
def Windows.allOn (w : Windows) : Bool := w.inbox.on && w.bays.on && w.ring.on

/-- RUN (R14). -/
def commandRun (s : State) : State :=
  match s.decoder.mode with
  | .pass => if s.decoder.windows.allOn then (s.setMode .run).finish .ok else s.finish .badState
  | .run => s.finish .ok
  | .halted => (s.setMode .run).finish .ok

/-- Some bay has an update in flight. -/
def State.anyInFlight (s : State) : Bool := s.bays.any fun e => e.inFlight

/-- HALT (R14): in RUN the mode changes at once, and the command waits while a bay update is in flight (log 24). -/
def commandHalt (s : State) : State :=
  match s.decoder.mode with
  | .pass => s.finish .badState
  | .run => if s.anyInFlight then (s.setMode .halted).setProgress .halting else (s.setMode .halted).finish .ok
  | .halted => s.finish .ok

/-- A HALT waits and no bay update of any bay is in flight: the moment at which it completes (R14). -/
def State.haltDue (s : State) : Bool :=
  s.mailbox.progress == .halting && s.mailbox.current.isSome && !s.anyInFlight

/-- The waiting HALT completes OK and rewrites the status block again (R14). -/
def completeHalt (s : State) : State := s.wantRewrite.finish .ok

/-- SET_TIME (R193): the second base goes on. -/
def commandSetTime (cmd : Command) (s : State) : State :=
  State.finish { s with clock := { s.clock with time := cmd.a } } .ok

/-- CLEAR_COUNTERS (R194); it sets the counter changed mark (R195). -/
def commandClearCounters (s : State) : State :=
  State.finish { s with counters := .zero, status := { s.status with counterChanged := true } } .ok

/-! ## INJECT (R42) -/

/-- The injection argument B asks for: a kind, none for 0, or BAD_ARG. -/
def injectKind (b : Nat) : Option (Option InjectKind) :=
  match b with
  | 0 => some none
  | 1 => some (some .badCheck)
  | 2 => some (some .skip)
  | 3 => some (some .drop)
  | _ => none

/-- INJECT (R42). -/
def commandInject (cmd : Command) (s : State) : State :=
  if s.decoder.mode = .pass then s.finish .badState
  else if !s.decoder.windows.servesRadio cmd.a.toNat then s.finish .badArg
  else
    match injectKind cmd.b.toNat with
    | none => s.finish .badArg
    | some k =>
      State.finish { s with link := { s.link with injection := k.map fun x => (cmd.a.setWidth 10, x) } } .ok

/-! ## SET_FEEDER (R121) -/

/-- The feeder an argument names. -/
def feederNamed (a : Nat) : Option FeederNo := if h : a < 8 then some ⟨a, h⟩ else none

/-- SET_FEEDER: a capacity above the old one acts on the feeder (R112, R121). -/
def commandSetFeeder (cmd : Command) (s : State) : State :=
  match feederNamed cmd.a.toNat with
  | none => s.finish .badArg
  | some f =>
    if 8 < cmd.b.toNat then s.finish .badArg
    else
      let s1 := (s.setFeeder f { s.feeder f with capacity := cmd.b.toNat }).finish .ok
      if (s.feeder f).capacity < cmd.b.toNat then act f s1 else s1

/-! ## Bay commands, judged as far as they are at once (R69) -/

/-- The served bay an argument names (R5). -/
def servedBay (w : Windows) (a : Nat) : Option BayNo :=
  if w.servesBay a then if h : a < 160 then some ⟨a, h⟩ else none else none

/-- A bay command whose argument `bayArg` names the bay and whose other arguments are judged by `argsOk` (R69). -/
def bayCommand (bayArg : Word) (argsOk : Bool) (s : State) : State :=
  if s.decoder.mode = .pass then s.finish .badState
  else
    match servedBay s.decoder.windows bayArg.toNat with
    | none => s.finish .badArg
    | some b => if argsOk then offerCommand b s else s.finish .badArg

/-- MAP_TAG (R53). -/
def commandMapTag (cmd : Command) (s : State) : State :=
  bayCommand cmd.b (s.decoder.windows.servesRadio cmd.a.toNat && cmd.c.toNat ≤ 1) s

/-- UNMAP_TAG (R55): an event of the mapped bay. -/
def commandUnmapTag (cmd : Command) (s : State) : State :=
  if s.decoder.mode = .pass then s.finish .badState
  else
    match s.link.tagMap.find? fun t => t.radio.toNat == cmd.a.toNat with
    | none => s.finish .notFound
    | some t => offerCommand t.bay s

/-- SET_LOADING (R146). -/
def commandSetLoading (cmd : Command) (s : State) : State := bayCommand cmd.a (cmd.b.toNat ≤ 1) s

/-- FORCE_DEFROST (R103). -/
def commandForceDefrost (cmd : Command) (s : State) : State := bayCommand cmd.a true s

/-- CANCEL_DEFROST (R104). -/
def commandCancelDefrost (cmd : Command) (s : State) : State := bayCommand cmd.a true s

/-- ASSIGN_FEEDER (R122). -/
def commandAssignFeeder (cmd : Command) (s : State) : State := bayCommand cmd.a (cmd.b.toNat ≤ 7) s

/-! ## Taking a command (R188, R189, R191) -/

/-- Run the current command by its code; a code not in the table completes with BAD_ARG (R189, R191). -/
def runCommand (cmd : Command) (s : State) : State :=
  match cmd.code.toNat with
  | 1 => commandSetWindow cmd s
  | 2 => commandSetTiming cmd s
  | 3 => commandRun s
  | 4 => commandHalt s
  | 5 => commandSetTime cmd s
  | 6 => commandMapTag cmd s
  | 7 => commandUnmapTag cmd s
  | 8 => commandSetLoading cmd s
  | 9 => commandForceDefrost cmd s
  | 10 => commandCancelDefrost cmd s
  | 11 => commandSetFeeder cmd s
  | 12 => commandAssignFeeder cmd s
  | 13 => commandInject cmd s
  | 14 => commandClearCounters s
  | _ => s.finish .badArg

/-- A move out of DONE asks for a rewrite (R188). -/
def State.leaveDone (s : State) : State := if s.mailbox.state = .done then s.wantRewrite else s

/-- The command a command word takes, with the latched arguments (R189). -/
def Mailbox.commandOf (m : Mailbox) (code : Word) : Command := ⟨code, m.argA, m.argB, m.argC⟩

/-- The mailbox takes a command: BUSY with the current command (R188, R189). -/
def State.takeCommand (s : State) (cmd : Command) : State :=
  let s1 := s.leaveDone
  { s1 with mailbox := { s1.mailbox with state := .busy, current := some cmd, progress := .none } }

/-- A command word other than 0 is taken and run (R189). -/
def takeAndRun (code : Word) (s : State) : State :=
  runCommand (s.mailbox.commandOf code) (s.takeCommand (s.mailbox.commandOf code))

/-- A command word of 0: DONE goes to IDLE (R188). -/
def acknowledge (s : State) : State :=
  if s.mailbox.state = .done then State.wantRewrite { s with mailbox := { s.mailbox with state := .idle } } else s

end Sys2Proof.Machine
end

