-- ==== Sys2Proof/Machine/Requests.lean ====
section
/-! DEFINITION. Front-port requests: presentation, the answer of each path (R1-R3, R9, R11-R13, R23, R60, R163,
R170-R181, R188), and the meaning of every front-port and command-word row of the table. -/

namespace Sys2Proof.Machine

/-! ## Steps -/

/-- A waiting HALT completes at the first moment no bay update is in flight (R14): where that moment has come, the
HALT's completion, an event of its own, is what happens next, whatever row comes (log 31). -/
def haltFirst (s : State) : State := if s.haltDue then settle (completeHalt s) else s

/-- An event that happens where its condition holds; every event ends with the Notice Writer's and the Status Writer's
judgements (log 5, log 14). -/
def happen (occurs : State → Bool) (f : State → State) (s : State) : State := if occurs s then settle (f s) else s

/-- An event of the part. No event occurs while RESET_N is low (R18; log 18), and a HALT whose moment has come completes
before any other event (R14; log 31). -/
def event (s : State) (occurs : State → Bool) (f : State → State) : Host.Outcome State Fault Refusal :=
  .next (if s.pins.resetN then happen occurs f (haltFirst s) else s)

/-! ## The Record Access Unit's answers -/

/-- What identifies the delayed entry of a read (R170). -/
def readKey (r : Request) : ReadKey := ⟨r.initiator, r.addr, r.access.length⟩

/-- The entry that matches a read (R170). -/
def State.entryFor (s : State) (k : ReadKey) : Option DelayedEntry := s.access.table.find? fun e => e.key == k

/-- Remove the matching entry; the entries behind close up (R172). -/
def State.removeEntry (s : State) (k : ReadKey) : State :=
  { s with access := { s.access with table := s.access.table.filter fun e => e.key != k } }

/-- A new QUEUED entry at the tail, if none matches and the table has room (R170, R172). -/
def State.addEntry (s : State) (k : ReadKey) : State :=
  if (s.entryFor k).isNone && s.access.table.length < 4 then
    { s with access := { s.access with table := s.access.table ++ [⟨k, .queued⟩] } }
  else s

/-- A lock on bay `b` is held by an initiator other than `i`. -/
def State.lockedAgainst (s : State) (i : Initiator) (b : BayNo) : Bool :=
  s.access.lock.any fun l => l.bay == b && l.holder != i

/-- The request passes to the Memory Port Arbiter and stays outstanding (R12). -/
def State.pass (s : State) (r : Request) (p : Path) : State := { s with front := ⟨some ⟨r, p⟩, none⟩ }

/-- A bay-record read without the lock flag (R170, R174). -/
def answerBayRead (r : Request) (b : BayNo) (s : State) : State :=
  if s.lockedAgainst r.initiator b then s.complete r.initiator .retry
  else if (s.bay b).inFlight then (s.addEntry (readKey r)).complete r.initiator .retry
  else
    match s.entryFor (readKey r) with
    | some ⟨_, .ready data _⟩ => (s.removeEntry (readKey r)).complete r.initiator (.done data)
    | some ⟨_, .queued⟩ => s.complete r.initiator .retry
    | none => s.pass r (.bayRead b false)

/-- The lock is established (R179). -/
def establish (i : Initiator) (b : BayNo) (s : State) : State :=
  State.wantRewrite { s with access := { s.access with lock := some ⟨i, b, s.params.lockHoldLimit⟩ } }

/-- A bay-record read with the lock flag (R179, R180). -/
def answerLockedBayRead (r : Request) (b : BayNo) (s : State) : State :=
  match s.access.lock with
  | none =>
    if (s.bay b).inFlight then s.complete r.initiator .retry
    else (establish r.initiator b s).pass r (.bayRead b false)
  | some l =>
    if l.holder = r.initiator then
      if l.bay = b then s.pass r (.bayRead b false) else s.complete r.initiator .refuse
    else s.complete r.initiator .retry

/-- The Bay Table takes settings (R60). -/
def State.setSettings (s : State) (b : BayNo) (x : Settings) : State := s.setBay b { s.bay b with settings := x }

/-- A settings write that begins at record word `12 + k` (R60, R177, R180). -/
def answerSettings (r : Request) (b : BayNo) (k : Nat) (ws : List (Mask × Word)) (s : State) : State :=
  let merged := (s.bay b).settings.merge k ws
  if !merged.inRange then s.complete r.initiator .refuse
  else if r.lock && s.access.lock.any (fun l => l.holder == r.initiator && l.bay != b) then
    s.complete r.initiator .refuse
  else if r.lock && s.access.lock.any (fun l => l.holder != r.initiator) then s.complete r.initiator .retry
  else if s.lockedAgainst r.initiator b then s.complete r.initiator .retry
  else if (s.bay b).inFlight then s.complete r.initiator .retry
  else
    (s.setSettings b merged).pass { r with access := .write (merged.touched k ws.length) } (.settings b)

/-! ## The other paths -/

/-- The Inbox Queue's answer to a write of the right shape (R23, R24). -/
def answerInbox (r : Request) (radio : RadioAddr) (frame : Frame) (s : State) : State :=
  if s.inbox.length < 16 then
    State.complete { s with inbox := s.inbox ++ [⟨frame, radio, s.now⟩] } r.initiator (.done [])
  else s.complete r.initiator .retry

/-- An argument word (R9). -/
def answerArgument (r : Request) (x : ArgName) (s : State) : State :=
  if s.mailbox.state = .busy then s.complete r.initiator .retry else s.pass r (.argument x)

/-- A consumer value is in span (R11). -/
def Ring.inSpan (q : Ring) (v : Word) : Bool :=
  v.toNat ≤ 255 && (v.setWidth 8 - q.consumer).toNat ≤ (q.producer - q.consumer).toNat

/-- The consumer copy takes `v`; the slots passed over lose their shadow (R163). -/
def Ring.consume (q : Ring) (v : BitVec 8) : Ring :=
  { q with
    consumer := v
    shadow :=
      Vector.ofFn fun n : Fin 256 =>
        if (BitVec.ofNat 8 n.val - q.consumer).toNat < (v - q.consumer).toNat then none else q.shadow[n] }

/-- The consumer index (R11, R163). -/
def answerConsumer (r : Request) (v : Word) (s : State) : State :=
  if s.ring.inSpan v then
    (State.wantRewrite { s with ring := s.ring.consume (v.setWidth 8) }).pass r .consumerIndex
  else s.complete r.initiator .refuse

/-- The command word (R188). -/
def answerCommand (r : Request) (v : Word) (s : State) : State :=
  if s.mailbox.state = .busy then s.complete r.initiator .retry
  else (if v = 0 then acknowledge s else takeAndRun v s).pass r .commandWord

/-- The answer of the path the Window Decoder gave (R3). -/
def answer (r : Request) (s : State) : Route → State
  | .refuse => s.complete r.initiator .refuse
  | .plain => s.pass r .plain
  | .argument x _ => answerArgument r x s
  | .command v => answerCommand r v s
  | .consumer v => answerConsumer r v s
  | .inbox radio frame => answerInbox r radio frame s
  | .bayRead b => if r.lock then answerLockedBayRead r b s else answerBayRead r b s
  | .settings b k ws => answerSettings r b k ws s

/-! ## Presentation (R1, R3, R181) -/

/-- The request comes from the holder of the Bay Lock without the lock flag (R181). -/
def State.releasedBy (s : State) (r : Request) : Bool :=
  !r.lock && s.access.lock.any fun l => l.holder == r.initiator

/-- The release at presentation, whose claims are made before the request is judged (R160, R181; log 14). -/
def releaseAtPresentation (r : Request) (s : State) : State :=
  if s.releasedBy r then noticeSettle (releaseLock s) else s

/-- The completion output shows no completion while a request is judged (log 19). -/
def State.clearAnswer (s : State) : State := { s with front := { s.front with answer := none } }

/-- A request is presented, and judged by R3 on the state as it is. -/
def present (r : Request) (s : State) : State :=
  let s1 := releaseAtPresentation r s.clearAnswer
  answer r s1 (route s1.decoder r)

/-- The front port's step: a request presented while one is outstanding stays with its initiator (R1; log 6). -/
def requestStep (r : Request) (s : State) : Host.Outcome State Fault Refusal :=
  event s (fun s => s.front.outstanding.isNone) (present r)

/-- A front-port row refuses a request that no bus can carry (R1; log 17). -/
def guarded (ok : Bool) (r : Request) (s : State) : Host.Outcome State Fault Refusal :=
  if ok then requestStep r s else .refused .illFormed

/-! ## Front-port rows (log 7) -/

/-- PLAIN_REQUEST (R12, R13). -/
def execPlainRequest (r : Request) (s : State) : Host.Outcome State Fault Refusal := guarded r.wellFormed r s

/-- INBOX_FRAME_WRITE (R23). -/
def execInboxFrameWrite (i : Initiator) (addr : WordAddr) (ws : List (Mask × Word)) (s : State) :
    Host.Outcome State Fault Refusal :=
  guarded (Request.wellFormed ⟨i, addr, false, .write ws⟩) ⟨i, addr, false, .write ws⟩ s

/-- BAY_RECORD_READ (R170). -/
def execBayRecordRead (i : Initiator) (addr : WordAddr) (length : Nat) (s : State) : Host.Outcome State Fault Refusal :=
  guarded (Request.wellFormed ⟨i, addr, false, .read length⟩) ⟨i, addr, false, .read length⟩ s

/-- LOCKED_BAY_RECORD_READ (R179, R180). -/
def execLockedBayRecordRead (i : Initiator) (addr : WordAddr) (length : Nat) (s : State) :
    Host.Outcome State Fault Refusal :=
  guarded (Request.wellFormed ⟨i, addr, true, .read length⟩) ⟨i, addr, true, .read length⟩ s

/-- SETTINGS_WRITE (R60, R177, R180). -/
def execSettingsWrite (i : Initiator) (addr : WordAddr) (lock : Bool) (ws : List (Mask × Word)) (s : State) :
    Host.Outcome State Fault Refusal :=
  guarded (Request.wellFormed ⟨i, addr, lock, .write ws⟩) ⟨i, addr, lock, .write ws⟩ s

/-- A single full-lane word written to an offset of the setup area (R8). -/
def setupWrite (d : Decoder) (i : Initiator) (offset : Nat) (v : Word) : Request :=
  ⟨i, BitVec.ofNat 20 (d.setupBase + offset), false, .write [(fullMask, v)]⟩

/-- The setup offset of an argument word (R8). -/
def argOffset : ArgName → Nat
  | .a => 1
  | .b => 2
  | .c => 3

/-- ARGUMENT_WRITE (R9). -/
def execArgumentWrite (i : Initiator) (x : ArgName) (v : Word) (s : State) : Host.Outcome State Fault Refusal :=
  requestStep (setupWrite s.decoder i (argOffset x) v) s

/-- CONSUMER_INDEX_WRITE (R11, R163). -/
def execConsumerIndexWrite (i : Initiator) (v : Word) (s : State) : Host.Outcome State Fault Refusal :=
  requestStep (setupWrite s.decoder i 8 v) s

/-- A write to the command word (R188). -/
def commandWordStep (i : Initiator) (code : Word) (s : State) : Host.Outcome State Fault Refusal :=
  requestStep (setupWrite s.decoder i 0 code) s

/-- COMMAND_WORD_ZERO (R188). -/
def execCommandWordZero (i : Initiator) (s : State) : Host.Outcome State Fault Refusal := commandWordStep i 0 s

/-- UNKNOWN_COMMAND: a code that R191 does not hold (R189); another code is no such command (log 17). -/
def execUnknownCommand (i : Initiator) (code : Word) (s : State) : Host.Outcome State Fault Refusal :=
  if code ≠ 0 && !knownCode code then commandWordStep i code s else .refused .illFormed

/-- SET_WINDOW (R6). -/
def execSetWindow (i : Initiator) (s : State) : Host.Outcome State Fault Refusal := commandWordStep i 1 s

/-- SET_TIMING (R192). -/
def execSetTiming (i : Initiator) (s : State) : Host.Outcome State Fault Refusal := commandWordStep i 2 s

/-- RUN (R14). -/
def execRun (i : Initiator) (s : State) : Host.Outcome State Fault Refusal := commandWordStep i 3 s

/-- HALT (R14). -/
def execHalt (i : Initiator) (s : State) : Host.Outcome State Fault Refusal := commandWordStep i 4 s

/-- SET_TIME (R193). -/
def execSetTime (i : Initiator) (s : State) : Host.Outcome State Fault Refusal := commandWordStep i 5 s

/-- MAP_TAG (R53, R54, R76). -/
def execMapTag (i : Initiator) (s : State) : Host.Outcome State Fault Refusal := commandWordStep i 6 s

/-- UNMAP_TAG (R55, R77). -/
def execUnmapTag (i : Initiator) (s : State) : Host.Outcome State Fault Refusal := commandWordStep i 7 s

/-- SET_LOADING (R146-R149). -/
def execSetLoading (i : Initiator) (s : State) : Host.Outcome State Fault Refusal := commandWordStep i 8 s

/-- FORCE_DEFROST (R103). -/
def execForceDefrost (i : Initiator) (s : State) : Host.Outcome State Fault Refusal := commandWordStep i 9 s

/-- CANCEL_DEFROST (R104). -/
def execCancelDefrost (i : Initiator) (s : State) : Host.Outcome State Fault Refusal := commandWordStep i 10 s

/-- SET_FEEDER (R121). -/
def execSetFeeder (i : Initiator) (s : State) : Host.Outcome State Fault Refusal := commandWordStep i 11 s

/-- ASSIGN_FEEDER (R122). -/
def execAssignFeeder (i : Initiator) (s : State) : Host.Outcome State Fault Refusal := commandWordStep i 12 s

/-- INJECT (R42). -/
def execInject (i : Initiator) (s : State) : Host.Outcome State Fault Refusal := commandWordStep i 13 s

/-- CLEAR_COUNTERS (R194). -/
def execClearCounters (i : Initiator) (s : State) : Host.Outcome State Fault Refusal := commandWordStep i 14 s

end Sys2Proof.Machine
end

