-- ==== Sys2Proof/Machine/Port.lean ====
section
/-! DEFINITION. The memory port: the arbiter's grant (R16), the bursts of the five requesters, and what each burst's
completion does (R9, R10, R66, R152, R171, R173, R176, R190, R195). -/

namespace Sys2Proof.Machine

/-! ## The arbiter (R16) -/

/-- The round-robin order. -/
def Requester.next : Requester → Requester
  | .passThrough => .record
  | .record => .notice
  | .notice => .status
  | .status => .fetch
  | .fetch => .passThrough

/-- The five requesters as a search from `q` meets them. -/
def searchFrom (q : Requester) : List Requester :=
  [q, q.next, q.next.next, q.next.next.next, q.next.next.next.next]

/-- A requester has a burst to present. -/
def State.presents (s : State) : Requester → Bool
  | .passThrough => s.front.outstanding.isSome
  | .record => !s.bursts.isEmpty
  | .notice => s.ring.inFlight.isSome
  | .status => s.status.presented.isSome
  | .fetch => s.access.fetch.isSome

/-- The first waiting requester found by searching from the arbiter's start. -/
def State.nextGrant (s : State) : Option Requester := (searchFrom s.arbiter.start).find? s.presents

/-- The port is granted to a requester. -/
def grantPort (q : Requester) (s : State) : State := { s with arbiter := ⟨q.next, some q⟩ }

/-- MEMORY_PORT_GRANT (R16): with the port free and a requester waiting. -/
def execMemoryPortGrant (s : State) : Host.Outcome State Fault Refusal :=
  event s (fun s => s.arbiter.granted.isNone && s.nextGrant.isSome) fun s =>
    match s.nextGrant with
    | some q => grantPort q s
    | none => s

/-! ## Bursts -/

/-- A status burst's word address and words (R10, R190). -/
def StatusBurst.placed (d : Decoder) : StatusBurst → Nat × List (Mask × Word)
  | .block n ws => (d.setupBase + statusOffset n, fullWords ws)
  | .result w => (d.setupBase + 4, fullWords [w])

/-- What a request writes at the end of its burst; a read writes nothing (R12). -/
def requestWrites (r : Request) : Nat × List (Mask × Word) :=
  match r.access with
  | .read _ => (r.addr.toNat, [])
  | .write ws => (r.addr.toNat, ws)

/-- The words a requester's burst writes, and where. -/
def State.burst (s : State) : Requester → Option (Nat × List (Mask × Word))
  | .passThrough => s.front.outstanding.map fun o => requestWrites o.request
  | .record => s.bursts.head?.map fun x => (x.addr, fullWords x.words)
  | .notice =>
    s.ring.inFlight.map fun ws => (s.decoder.windows.ring.baseWord + s.ring.producer.toNat * 4, fullWords ws)
  | .status => s.status.presented.map (StatusBurst.placed s.decoder)
  | .fetch => none

/-- Memory after a requester's burst has been written whole. -/
def State.burstWritten (s : State) (q : Requester) : Memory :=
  match s.burst q with
  | some (a, ws) => s.mem.writeWords a ws
  | none => s.mem

/-- A burst completes: its words are in memory and the port is free (R16; log 12). -/
def State.endBurst (s : State) (q : Requester) : State :=
  { s with mem := s.burstWritten q, arbiter := { s.arbiter with granted := none } }

/-- The granted burst is `q`'s. -/
def State.holdsPort (s : State) (q : Requester) : Bool := s.arbiter.granted == some q && s.presents q

/-! ## Pass-through bursts -/

/-- The words a DONE carries (R2). -/
def requestData (m : Memory) (r : Request) : List Word :=
  match r.access with
  | .read n => m.readWords r.addr.toNat n
  | .write _ => []

/-- The word a single-word write carries. -/
def requestWord (r : Request) : Word :=
  match r.access with
  | .write ((_, v) :: _) => v
  | _ => 0

/-- The mailbox's latched argument takes the written value (R9). -/
def State.latch (s : State) (x : ArgName) (v : Word) : State :=
  match x with
  | .a => { s with mailbox := { s.mailbox with argA := v } }
  | .b => { s with mailbox := { s.mailbox with argB := v } }
  | .c => { s with mailbox := { s.mailbox with argC := v } }

/-- Every entry whose words lie in `b`'s record leaves the table (R176). -/
def State.dropEntries (s : State) (b : BayNo) : State :=
  { s with
    access := { s.access with table := s.access.table.filter fun e => s.keyBay e.key != some b } }

/-- A bay-record read judged again (R171, R179). -/
def rejudgeRead (r : Request) (b : BayNo) (overtaken : Bool) (data : List Word) (s : State) : State :=
  if overtaken then
    (if !r.lock && (s.bay b).inFlight then s.addEntry (readKey r) else s).complete r.initiator .retry
  else (if r.lock then s.removeEntry (readKey r) else s).complete r.initiator (.done data)

/-- What the completion of a request's burst does, by its path. -/
def finishRequest (r : Request) (data : List Word) (s : State) : Path → State
  | .plain | .commandWord | .consumerIndex => s.complete r.initiator (.done data)
  | .argument x => (s.latch x (requestWord r)).complete r.initiator (.done data)
  | .settings b => (s.dropEntries b).complete r.initiator (.done data)
  | .bayRead b overtaken => rejudgeRead r b overtaken data s

/-- PASS_THROUGH_BURST_COMPLETE (R9, R12, R171, R176). -/
def execPassThroughBurstComplete (s : State) : Host.Outcome State Fault Refusal :=
  event s (fun s => s.holdsPort .passThrough) fun s =>
    match s.front.outstanding with
    | some o => finishRequest o.request (requestData s.mem o.request) (s.endBurst .passThrough) o.path
    | none => s

/-! ## Record bursts (R66) -/

/-- The oldest burst leaves the record writer's queue. -/
def State.popBurst (s : State) : State := { s with bursts := s.bursts.tail }

/-- RECORD_BURST_COMPLETE: a second burst ends its bay update. -/
def execRecordBurstComplete (s : State) : Host.Outcome State Fault Refusal :=
  event s (fun s => s.holdsPort .record) fun s =>
    match s.bursts with
    | x :: _ => if x.ends then endUpdate x.bay (s.endBurst .record).popBurst else (s.endBurst .record).popBurst
    | [] => s

/-! ## Notice bursts (R152) -/

/-- The producer index advances, no entry is in flight, and a status rewrite is asked for. -/
def State.advanceProducer (s : State) : State :=
  State.wantRewrite { s with ring := { s.ring with producer := s.ring.producer + 1, inFlight := none } }

/-- NOTICE_BURST_COMPLETE. -/
def execNoticeBurstComplete (s : State) : Host.Outcome State Fault Refusal :=
  event s (fun s => s.holdsPort .notice) fun s => (s.endBurst .notice).advanceProducer

/-! ## Status bursts and the result word (R190, R195) -/

/-- No status burst is presented. -/
def State.clearPresented (s : State) : State := { s with status := { s.status with presented := none } }

/-- Burst 3 of a rewrite ends it, and ATTN_N follows its cause word (R167, R195). -/
def State.endRewrite (s : State) : State :=
  { s with
    status := { s.status with rewrite := none }
    pins := { s.pins with attnN := !s.status.causeShown } }

/-- Burst `n` of a rewrite is written: the next burst is due, or the rewrite ends. -/
def State.afterBlock (s : State) (n : Nat) : State :=
  if n < 3 then { s with status := { s.status with rewrite := some (n + 1) } } else s.endRewrite

/-- A result word burst that waits when a status burst completes is presented next (R195; log 13). -/
def State.presentPending (s : State) : State := if s.status.resultPending then presentResult s else s

/-- The status burst presented is a block of a rewrite. -/
def State.blockPresented (s : State) : Bool :=
  match s.status.presented with
  | some (.block _ _) => true
  | _ => false

/-- The status burst presented is the result word. -/
def State.resultPresented (s : State) : Bool :=
  match s.status.presented with
  | some (.result _) => true
  | _ => false

/-- STATUS_BURST_COMPLETE. -/
def execStatusBurstComplete (s : State) : Host.Outcome State Fault Refusal :=
  event s (fun s => s.holdsPort .status && s.blockPresented) fun s =>
    match s.status.presented with
    | some (.block n _) => (((s.endBurst .status).clearPresented).afterBlock n).presentPending
    | _ => s

/-- The mailbox becomes DONE with no current command, and a rewrite is asked for (R190). -/
def State.commandDone (s : State) : State :=
  State.wantRewrite { s with mailbox := { s.mailbox with state := .done, current := none, progress := .none } }

/-- RESULT_WORD_COMPLETE. -/
def execResultWordComplete (s : State) : Host.Outcome State Fault Refusal :=
  event s (fun s => s.holdsPort .status && s.resultPresented) fun s => ((s.endBurst .status).clearPresented).commandDone

/-! ## Fetches (R173) -/

/-- A fetched entry becomes READY and its reclaim timer starts; an entry that has left the table does not come back. -/
def State.fetched (s : State) (k : ReadKey) (data : List Word) : State :=
  { s with
    access :=
      { s.access with
        table := s.access.table.map fun e => if e.key == k then ⟨k, .ready data s.params.reclaimTime⟩ else e } }

/-- No fetch is under way. -/
def State.clearFetch (s : State) : State := { s with access := { s.access with fetch := none } }

/-- The completion of the fetch `x`: kept or dropped, and the fetcher judges again. -/
def finishFetch (x : Fetch) (s : State) : State :=
  let data := s.mem.readWords x.key.addr.toNat x.key.length
  let s1 := (s.endBurst .fetch).clearFetch
  fetchJudge (if x.void then s1 else s1.fetched x.key data)

/-- FETCH_COMPLETE. -/
def execFetchComplete (s : State) : Host.Outcome State Fault Refusal :=
  event s (fun s => s.holdsPort .fetch) fun s =>
    match s.access.fetch with
    | some x => finishFetch x s
    | none => s

end Sys2Proof.Machine
end

