-- ==== Sys2Proof/Machine/Events.lean ====
section
/-! DEFINITION. The events of the blocks: taking a frame (R38-R52), HALT's completion (R14), the timers' expiries
(R68, R75, R99-R102, R117, R144, R175, R182), the yard tick (R193) and the FEEDER_OK lines (R115-R119). -/

namespace Sys2Proof.Machine

/-! ## Taking a frame -/

/-- The frame handed on (R49). -/
def InboxEntry.handed (e : InboxEntry) (seq : Seq) (b : BayNo) : HandedFrame := ⟨e.frame, seq, e.radio, e.arrival, b⟩

/-- A frame fills the hand-off place and reaches its bay (R38, R67). -/
def handOn (h : HandedFrame) (s : State) : State :=
  offerFrame h { s with link := { s.link with handOff := some h } }

/-- Raise the LINK condition of a take, if it changed the track state (R48). -/
def raiseLink (t : TagEntry) (raised : Option Code) (arrival : Time) (s : State) : State :=
  match raised with
  | some code => s.raiseAlert t.bay .link (linkCondition s.params code t arrival)
  | none => s

/-- A frame of a mapped radio (R40, steps 4 and 5). -/
def takeOfMapped (t : TagEntry) (e : InboxEntry) (good : Bool) (seq : Seq) (s : State) : State :=
  let k := takeMapped s.params t s.counters good seq
  let s1 := s.count k.counters
  let s2 := raiseLink k.entry k.raised e.arrival { s1 with link := s1.link.setEntry k.entry }
  if k.handOn then handOn (e.handed seq t.bay) s2 else s2

/-- A frame that no injection dropped: counted, judged, looked up (R40, steps 2 to 5). -/
def takeJudged (inj : Option InjectKind) (e : InboxEntry) (s : State) : State :=
  let s1 := s.count { s.counters with framesTaken := satAdd s.counters.framesTaken 1 }
  match s1.link.entryOf e.radio with
  | some t => takeOfMapped t e (verdict inj e) (treatedSeq inj e.frame) s1
  | none => takeUnmapped s1 e (verdict inj e) (treatedSeq inj e.frame)

/-- A take of the head entry, already removed from the queue (R40): the injection first. -/
def takeEntry (e : InboxEntry) (s : State) : State :=
  match s.link.injectionFor e.radio with
  | some .drop => { s with link := { s.link with injection := none } }
  | some k => takeJudged (some k) e { s with link := { s.link with injection := none } }
  | none => takeJudged none e s

/-- TAKE_FRAME (R38). -/
def execTakeFrame (s : State) : Host.Outcome State Fault Refusal :=
  event s (fun s => s.decoder.mode == .run && !s.inbox.isEmpty && s.link.handOff.isNone) fun s =>
    match s.inbox with
    | e :: rest => takeEntry e { s with inbox := rest }
    | [] => s

/-! ## HALT's completion (R14) -/

/-- HALT_COMPLETE: a waiting HALT, with no bay update in flight. -/
def execHaltComplete (s : State) : Host.Outcome State Fault Refusal :=
  .next (if s.pins.resetN then happen State.haltDue completeHalt s else s)

/-! ## Expiries of a bay's timers (R57, R67, R70; log 11) -/

/-- A timer with no second left. -/
def Timer.due : Timer → Bool
  | .running 0 _ => true
  | .running (_ + 1) _ => false
  | .stopped => false
  | .expired _ => false

/-- A timer has expired, and its expiry reaches the bay. -/
def timerExpires (b : BayNo) (t : BayTimer) (s : State) : State :=
  let e := s.bay b
  offerHeld b (.expiry t false) (s.setBay b (e.putTimer t (.expired (e.timer t).length)))

/-- A timer of bay `b` is due in RUN. -/
def State.timerDue (s : State) (b : BayNo) (t : BayTimer) : Bool :=
  s.decoder.mode == .run && ((s.bay b).timer t).due

/-- The defrost timer of bay `b` is due in the defrost state that it times. -/
def State.defrostDue (s : State) (b : BayNo) (d : DefrostState) : Bool :=
  s.timerDue b .defrost && (s.bay b).defrost.state == d

/-- SILENCE_EXPIRY (R75). -/
def execSilenceExpiry (b : BayNo) (s : State) : Host.Outcome State Fault Refusal :=
  event s (fun s => s.timerDue b .silence) (timerExpires b .silence)

/-- START_WINDOW_EXPIRY (R99). -/
def execStartWindowExpiry (b : BayNo) (s : State) : Host.Outcome State Fault Refusal :=
  event s (fun s => s.defrostDue b .ordered) (timerExpires b .defrost)

/-- MAX_DEFROST_EXPIRY (R100). -/
def execMaxDefrostExpiry (b : BayNo) (s : State) : Host.Outcome State Fault Refusal :=
  event s (fun s => s.defrostDue b .running) (timerExpires b .defrost)

/-- STOP_WINDOW_EXPIRY (R101). -/
def execStopWindowExpiry (b : BayNo) (s : State) : Host.Outcome State Fault Refusal :=
  event s (fun s => s.defrostDue b .stopping) (timerExpires b .defrost)

/-- DRAIN_EXPIRY (R102). -/
def execDrainExpiry (b : BayNo) (s : State) : Host.Outcome State Fault Refusal :=
  event s (fun s => s.defrostDue b .draining) (timerExpires b .defrost)

/-- DOOR_TIMER_EXPIRY (R144). -/
def execDoorTimerExpiry (b : BayNo) (s : State) : Host.Outcome State Fault Refusal :=
  event s (fun s => s.timerDue b .door) (timerExpires b .door)

/-! ## Time (R184, R193; log 8, log 9) -/

/-- The REFCLK periods in one count of the second base. -/
def secondPeriods : Nat := 1000000

/-- A reclaim timer loses `n` microseconds. -/
def DelayedEntry.lose (n : Nat) (e : DelayedEntry) : DelayedEntry :=
  match e.state with
  | .queued => e
  | .ready data left => { e with state := .ready data (left - n) }

/-- `n` REFCLK periods pass with no yard tick among them: the second base counts them and the microsecond timers lose
them. -/
def passPeriods (n : Nat) (s : State) : State :=
  { s with
    clock := { s.clock with base := s.clock.base + n }
    access :=
      { s.access with
        table := s.access.table.map (DelayedEntry.lose n)
        lock := s.access.lock.map fun l => { l with left := l.left - n } } }

/-- A running second-scale timer loses one second. -/
def Timer.tick : Timer → Timer
  | .running left n => .running (left - 1) n
  | .stopped => .stopped
  | .expired n => .expired n

/-- The three timers of a bay at a yard tick in RUN. -/
def BayEntry.tick (e : BayEntry) : BayEntry :=
  { e with
    silence := e.silence.tick
    defrost := { e.defrost with timer := e.defrost.timer.tick }
    door := { e.door with timer := e.door.timer.tick } }

/-- A restore timer at a yard tick in RUN. -/
def Feeder.tick (x : Feeder) : Feeder := { x with timer := x.timer.tick }

/-- In RUN every second-scale timer loses a second; in HALTED and PASS none does (R15, R193). -/
def tickTimers (s : State) : State :=
  if s.decoder.mode = .run then { s with bays := s.bays.map BayEntry.tick, feeders := s.feeders.map Feeder.tick }
  else s

/-- After a counter change the Status Writer clears the mark and asks for a rewrite (R195). -/
def counterRewrite (s : State) : State :=
  if s.status.counterChanged then
    State.wantRewrite { s with status := { s.status with counterChanged := false } }
  else s

/-- Yard time rises by one and the second base starts counting again. -/
def tickClock (s : State) : State := { s with clock := ⟨s.clock.time + 1, 0⟩ }

/-- The rest of the second base's count passes, and the yard tick occurs (R193). -/
def yardTick (s : State) : State :=
  counterRewrite (tickTimers (tickClock (passPeriods (secondPeriods - s.clock.base) s)))

/-- The next `k` yard ticks, with the periods up to each of them; every tick is an event of its own (R193). -/
def passTicks : Nat → State → State
  | 0, s => s
  | k + 1, s => passTicks k (settle (yardTick s))

/-- `n` REFCLK periods pass: a yard tick occurs each time the second base completes a count, before what stands at the
end of the periods (R193; log 9). -/
def elapse (n : Nat) (s : State) : State :=
  let total := s.clock.base + n
  let t := passTicks (total / secondPeriods) s
  passPeriods (total % secondPeriods - t.clock.base) t

/-- YARD_TICK. -/
def execYardTick (s : State) : Host.Outcome State Fault Refusal := event s (fun _ => true) yardTick

/-- One REFCLK period: what the block does with no command waiting (log 8). -/
def refclkPeriod (s : State) : State :=
  if s.clock.base + 1 < secondPeriods then passPeriods 1 s else yardTick s

/-- The step on an empty queue (log 8). -/
def idle (s : State) : Host.Outcome State Fault Refusal := event s (fun _ => true) refclkPeriod

/-! ## The Record Access Unit's timers -/

/-- The microseconds left on the lock's hold timer. -/
def State.holdLeft (s : State) : Nat := (s.access.lock.map fun l => l.left).getD 0

/-- The lock is broken (R182). -/
def breakLock (s : State) : State :=
  releaseLock (s.count { s.counters with locksBroken := satAdd s.counters.locksBroken 1 })

/-- LOCK_HOLD_EXPIRY (R182): the hold timer's periods pass and the lock is broken (log 9). -/
def execLockHoldExpiry (s : State) : Host.Outcome State Fault Refusal :=
  event s (fun s => s.access.lock.isSome) fun s => breakLock (elapse s.holdLeft s)

/-- The microseconds left on the reclaim timer of the entry at a place, if it is READY. -/
def State.reclaimLeft (s : State) (place : Fin 4) : Option (ReadKey × Nat) :=
  match s.access.table[place.val]? with
  | some ⟨k, .ready _ left⟩ => some (k, left)
  | _ => none

/-- A READY entry is reclaimed (R175). -/
def reclaim (k : ReadKey) (s : State) : State :=
  (s.removeEntry k).count { s.counters with readsReclaimed := satAdd s.counters.readsReclaimed 1 }

/-- RECLAIM_EXPIRY of the entry at a place of the table (R175; log 9). -/
def execReclaimExpiry (place : Fin 4) (s : State) : Host.Outcome State Fault Refusal :=
  event s (fun s => (s.reclaimLeft place).isSome) fun s =>
    match s.reclaimLeft place with
    | some (k, left) => reclaim k (elapse left s)
    | none => s

/-! ## Feeders restored (R117, R119) -/

/-- The seconds the bay at the front of the wait queue has waited, 0 for none (R119). -/
def Feeder.frontWait (x : Feeder) (now : Time) : Nat := ((x.queue.head?.map fun e => (now - e.2).toNat)).getD 0

/-- The RESTORED condition, taken before any grant (R119). -/
def Feeder.restored (x : Feeder) (now : Time) : Condition :=
  ⟨.restored, now, .counts x.queue.length (x.frontWait now), now - x.trippedSince⟩

/-- Raise a feeder condition; in PASS none is raised (R118). -/
def raiseFeeder (f : FeederNo) (c : Condition) (s : State) : State :=
  if s.decoder.mode = .pass then s else { s with sources := s.sources.raiseFeeder f c }

/-- The feeder becomes ACTIVE, raises RESTORED and grants to waiting bays (R117). -/
def becomeActive (f : FeederNo) (s : State) : State :=
  let x := s.feeder f
  act f (raiseFeeder f (x.restored s.now) (s.setFeeder f { x with state := .active, timer := .stopped })).wantRewrite

/-- RESTORE_TIMER_EXPIRY (R117). -/
def execRestoreTimerExpiry (f : FeederNo) (s : State) : Host.Outcome State Fault Refusal :=
  event s (fun s => s.decoder.mode == .run && (s.feeder f).state == .restoring && (s.feeder f).timer.due)
    (becomeActive f)

/-! ## The FEEDER_OK lines (R115, R116, R118) -/

/-- A FEEDER_OK line's level. -/
def State.setLine (s : State) (f : FeederNo) (high : Bool) : State :=
  { s with pins := { s.pins with feederOk := s.pins.feederOk.set f high } }

/-- One revocation: the change in the bay's entry, and its orders told (R115). -/
def revokeOne (f : FeederNo) (s : State) (b : BayNo) : State :=
  let w := (Work.start (s.bay b)).revoke f
  tellOrders b w.orders (s.setBay b w.bay)

/-- A bay whose revocation leads to DUE: it is ORDERED (R115). -/
def State.revokedToDue (s : State) (b : BayNo) : Bool := (s.bay b).defrost.state == .ordered

/-- A feeder that changes into TRIPPED: its state, its time and its queue with the bays revoked to DUE at the front. -/
def Feeder.trip (x : Feeder) (now : Time) (due : List BayNo) (selfs : Nat) : Feeder :=
  { x with
    state := .tripped
    grants := []
    selfCount := x.selfCount + selfs
    queue := (due.map fun b => (b, now)) ++ x.queue
    timer := .stopped
    trippedSince := now }

/-- The TRIPPED condition (R119). -/
def trippedCondition (now : Time) (due selfs selfCount : Nat) : Condition :=
  ⟨.tripped, now, .counts due selfs, BitVec.ofNat 32 selfCount⟩

/-- The feeder trips: grants revoked in grant order, TRIPPED raised, then the revocation updates (R115, R116). -/
def tripFeeder (f : FeederNo) (s : State) : State :=
  let x := s.feeder f
  let due := x.grants.filter s.revokedToDue
  let selfs := x.grants.length - due.length
  let x1 := x.trip s.now due selfs
  let s1 := (x.grants.foldl (revokeOne f) s).setFeeder f x1
  let s2 := (raiseFeeder f (trippedCondition s.now due.length selfs x1.selfCount) s1).wantRewrite
  x.grants.foldl (fun s b => offerHeld b .revocation s) s2

/-- A line falls: a feeder that is not TRIPPED trips; from RESTORING its grant list is empty (R116). -/
def lineFalls (f : FeederNo) (s : State) : State :=
  if (s.feeder f).state = .tripped then s else tripFeeder f s

/-- A TRIPPED feeder begins its restore delay (R116). -/
def startRestore (f : FeederNo) (s : State) : State :=
  (s.setFeeder f { s.feeder f with state := .restoring, timer := .start s.params.restoreDelay }).wantRewrite

/-- A line rises: a TRIPPED feeder restores, at once in PASS or with restore delay 0 (R116, R118). -/
def lineRises (f : FeederNo) (s : State) : State :=
  if (s.feeder f).state = .tripped then
    if s.decoder.mode = .pass ∨ s.params.restoreDelay = 0 then becomeActive f s else startRestore f s
  else s

/-- FEEDER_OK_FALL (R116): a line that is high falls; while RESET_N is low only the line moves (R106; log 26). -/
def execFeederOkFall (f : FeederNo) (s : State) : Host.Outcome State Fault Refusal :=
  if s.pins.resetN then event s (fun s => s.pins.feederOk[f]) fun s => lineFalls f (s.setLine f false)
  else .next (s.setLine f false)

/-- FEEDER_OK_RISE (R116): a line that is low rises; while RESET_N is low only the line moves (R106; log 26). -/
def execFeederOkRise (f : FeederNo) (s : State) : Host.Outcome State Fault Refusal :=
  if s.pins.resetN then event s (fun s => !s.pins.feederOk[f]) fun s => lineRises f (s.setLine f true)
  else .next (s.setLine f true)

end Sys2Proof.Machine
end

