-- ==== Sys2Proof/Machine/Reset.lean ====
section
/-! DEFINITION. RESET_N's fall and release (R18, R198). -/

namespace Sys2Proof.Machine

/-- The part of a burst that was written before it was cut: word `k` where `bits` has bit `k`; the others keep their old
values (R18; log 4). -/
def cutBurst (bits : BitVec 8) : Nat → List (Mask × Word) → List (Mask × Word)
  | _, [] => []
  | k, (m, w) :: rest => (if bits.getLsbD k then m else 0, w) :: cutBurst bits (k + 1) rest

/-- The words a requester's cut burst may have written: none of a result word burst, since the result word of a command
being run at the fall is never written (R187; log 33). -/
def State.cuttable (s : State) (q : Requester) : Option (Nat × List (Mask × Word)) :=
  if q = .status ∧ s.resultPresented = true then none else s.burst q

/-- Memory when the burst under way is cut with the words of `bits` written (R18; log 4). -/
def State.cutMemory (s : State) (bits : BitVec 8) : Memory :=
  match s.arbiter.granted with
  | some q =>
    match s.cuttable q with
    | some (a, ws) => s.mem.writeWords a (cutBurst bits 0 ws)
    | none => s.mem
  | none => s.mem

/-- The part while RESET_N is low: every block's state is lost, and ATTN_N is high (R18, R167; log 18). -/
def heldInReset (s : State) (bits : BitVec 8) : State :=
  State.blank s.pending { s.pins with resetN := false, attnN := true } (s.cutMemory bits) (s.freeUsed + 1)

/-- RESET_N_FALL (R18): which words of a cut burst were written is the free value. -/
def execResetNFall (s : State) : Host.Outcome State Fault Refusal :=
  .next (if s.pins.resetN then heldInReset s (Config.cutWords s.freeUsed) else s)

/-- Every block takes its value after RESET_N, with the straps sampled and the lines followed (R4, R106, R198). -/
def releaseReset (memsize : BitVec 2) (s : State) : State :=
  (State.blank s.pending { s.pins with resetN := true, memsize := memsize, attnN := true } s.mem s.freeUsed).wantRewrite

/-- RESET_N_RELEASE (R198): the first status rewrite begins in the same event. -/
def execResetNRelease (memsize : BitVec 2) (s : State) : Host.Outcome State Fault Refusal :=
  .next (if s.pins.resetN then s else settle (releaseReset memsize s))

end Sys2Proof.Machine
end

