-- ==== Sys2Proof/Machine/Dispatch.lean ====
section
/-! DEFINITION. The meaning of each command: one arm per row of spec/opcode_table.json. -/

namespace Sys2Proof.Machine

/-- The command's effect on everything but the queue. -/
def exec (i : Instr) (s : State) : Host.Outcome State Fault Refusal :=
  match i with
  | .plainRequest r => Sys2Proof.Machine.execPlainRequest r s
  | .inboxFrameWrite who addr words => Sys2Proof.Machine.execInboxFrameWrite who addr words s
  | .bayRecordRead who addr length => Sys2Proof.Machine.execBayRecordRead who addr length s
  | .lockedBayRecordRead who addr length => Sys2Proof.Machine.execLockedBayRecordRead who addr length s
  | .settingsWrite who addr lock words => Sys2Proof.Machine.execSettingsWrite who addr lock words s
  | .argumentWrite who arg value => Sys2Proof.Machine.execArgumentWrite who arg value s
  | .consumerIndexWrite who value => Sys2Proof.Machine.execConsumerIndexWrite who value s
  | .commandWordZero who => Sys2Proof.Machine.execCommandWordZero who s
  | .unknownCommand who code => Sys2Proof.Machine.execUnknownCommand who code s
  | .setWindow who => Sys2Proof.Machine.execSetWindow who s
  | .setTiming who => Sys2Proof.Machine.execSetTiming who s
  | .run who => Sys2Proof.Machine.execRun who s
  | .halt who => Sys2Proof.Machine.execHalt who s
  | .setTime who => Sys2Proof.Machine.execSetTime who s
  | .mapTag who => Sys2Proof.Machine.execMapTag who s
  | .unmapTag who => Sys2Proof.Machine.execUnmapTag who s
  | .setLoading who => Sys2Proof.Machine.execSetLoading who s
  | .forceDefrost who => Sys2Proof.Machine.execForceDefrost who s
  | .cancelDefrost who => Sys2Proof.Machine.execCancelDefrost who s
  | .setFeeder who => Sys2Proof.Machine.execSetFeeder who s
  | .assignFeeder who => Sys2Proof.Machine.execAssignFeeder who s
  | .inject who => Sys2Proof.Machine.execInject who s
  | .clearCounters who => Sys2Proof.Machine.execClearCounters who s
  | .memoryPortGrant => Sys2Proof.Machine.execMemoryPortGrant s
  | .passThroughBurstComplete => Sys2Proof.Machine.execPassThroughBurstComplete s
  | .recordBurstComplete => Sys2Proof.Machine.execRecordBurstComplete s
  | .noticeBurstComplete => Sys2Proof.Machine.execNoticeBurstComplete s
  | .statusBurstComplete => Sys2Proof.Machine.execStatusBurstComplete s
  | .resultWordComplete => Sys2Proof.Machine.execResultWordComplete s
  | .fetchComplete => Sys2Proof.Machine.execFetchComplete s
  | .takeFrame => Sys2Proof.Machine.execTakeFrame s
  | .haltComplete => Sys2Proof.Machine.execHaltComplete s
  | .silenceExpiry b => Sys2Proof.Machine.execSilenceExpiry b s
  | .startWindowExpiry b => Sys2Proof.Machine.execStartWindowExpiry b s
  | .maxDefrostExpiry b => Sys2Proof.Machine.execMaxDefrostExpiry b s
  | .stopWindowExpiry b => Sys2Proof.Machine.execStopWindowExpiry b s
  | .drainExpiry b => Sys2Proof.Machine.execDrainExpiry b s
  | .doorTimerExpiry b => Sys2Proof.Machine.execDoorTimerExpiry b s
  | .restoreTimerExpiry f => Sys2Proof.Machine.execRestoreTimerExpiry f s
  | .reclaimExpiry place => Sys2Proof.Machine.execReclaimExpiry place s
  | .lockHoldExpiry => Sys2Proof.Machine.execLockHoldExpiry s
  | .yardTick => Sys2Proof.Machine.execYardTick s
  | .feederOkFall f => Sys2Proof.Machine.execFeederOkFall f s
  | .feederOkRise f => Sys2Proof.Machine.execFeederOkRise f s
  | .resetNFall => Sys2Proof.Machine.execResetNFall s
  | .resetNRelease memsize => Sys2Proof.Machine.execResetNRelease memsize s

end Sys2Proof.Machine
end

