-- ==== Sys2Proof/Safety.lean ====
section
/-! DEFINITION. The vocabulary of the statements: when the part takes a request or a command, what a command's taking and
finishing leave, what a bay update leaves, and the invariants. -/

namespace Sys2Proof.Machine

/-! ## When the part takes a request or a command -/

/-- Events occur, and no HALT is to complete before the next of them (R14, R18; log 31). -/
def Live (s : State) : Prop := s.pins.resetN = true ∧ s.haltDue = false

/-- The part is live and no request is outstanding (R1, R18). -/
def Accepts (s : State) : Prop := Live s ∧ s.front.outstanding = none

/-- Initiator `i` does not hold the Bay Lock. -/
def NotHolder (s : State) (i : Initiator) : Prop := ∀ l, s.access.lock = some l → l.holder ≠ i

/-- No claim and no presentation is to be made: every step ends so (R160, R195). -/
def Settled (s : State) : Prop := settle s = s

/-- A command word of initiator `i` would be taken (R188). -/
def Open (s : State) (i : Initiator) : Prop := Accepts s ∧ NotHolder s i ∧ s.mailbox.state ≠ .busy

/-- A bay at which an update can begin at once: none in flight, nothing waiting, held or deferred, and not locked. -/
def FreeBay (s : State) (b : BayNo) : Prop :=
  (s.bay b).inFlight = false ∧ (s.bay b).waiting = [] ∧ (s.bay b).held = [] ∧ (s.bay b).deferred = none
    ∧ s.locked b = false

/-! ## The rows of the table as requests (log 7) -/

/-- A write of the one word `v`, all four lanes, to offset `k` of the setup page (R8). -/
def setupWord (s : State) (i : Initiator) (k : Nat) (v : Word) : Request :=
  ⟨i, BitVec.ofNat 20 ((pagesOf s.decoder.memSize - 1) * 1024 + k), false, .write [(15, v)]⟩

/-- The request a front-port or command-word row presents; an event row presents none. -/
def requestOf (s : State) : Instr → Option Request
  | .plainRequest r => some r
  | .inboxFrameWrite i a ws => some ⟨i, a, false, .write ws⟩
  | .bayRecordRead i a n => some ⟨i, a, false, .read n⟩
  | .lockedBayRecordRead i a n => some ⟨i, a, true, .read n⟩
  | .settingsWrite i a lock ws => some ⟨i, a, lock, .write ws⟩
  | .argumentWrite i .a v => some (setupWord s i 1 v)
  | .argumentWrite i .b v => some (setupWord s i 2 v)
  | .argumentWrite i .c v => some (setupWord s i 3 v)
  | .consumerIndexWrite i v => some (setupWord s i 8 v)
  | .commandWordZero i => some (setupWord s i 0 0)
  | .unknownCommand i code => some (setupWord s i 0 code)
  | .setWindow i => some (setupWord s i 0 1)
  | .setTiming i => some (setupWord s i 0 2)
  | .run i => some (setupWord s i 0 3)
  | .halt i => some (setupWord s i 0 4)
  | .setTime i => some (setupWord s i 0 5)
  | .mapTag i => some (setupWord s i 0 6)
  | .unmapTag i => some (setupWord s i 0 7)
  | .setLoading i => some (setupWord s i 0 8)
  | .forceDefrost i => some (setupWord s i 0 9)
  | .cancelDefrost i => some (setupWord s i 0 10)
  | .setFeeder i => some (setupWord s i 0 11)
  | .assignFeeder i => some (setupWord s i 0 12)
  | .inject i => some (setupWord s i 0 13)
  | .clearCounters i => some (setupWord s i 0 14)
  | .memoryPortGrant | .passThroughBurstComplete | .recordBurstComplete | .noticeBurstComplete => none
  | .statusBurstComplete | .resultWordComplete | .fetchComplete | .takeFrame | .haltComplete => none
  | .silenceExpiry _ | .startWindowExpiry _ | .maxDefrostExpiry _ | .stopWindowExpiry _ => none
  | .drainExpiry _ | .doorTimerExpiry _ | .restoreTimerExpiry _ | .reclaimExpiry _ => none
  | .lockHoldExpiry | .yardTick | .feederOkFall _ | .feederOkRise _ | .resetNFall => none
  | .resetNRelease _ => none

/-- A row that moves a pin of the part. -/
def movesPin : Instr → Bool
  | .feederOkFall _ | .feederOkRise _ | .resetNFall | .resetNRelease _ => true
  | _ => false

/-! ## Where a request points, in the words of R3 -/

/-- The first word of the setup area (R4). -/
def setupFirst (s : State) : Nat := (pagesOf s.decoder.memSize - 1) * 1024

/-- The request passes step 1 of R3: it lies inside memory and crosses no aligned 8-word block. -/
def Shaped (s : State) (r : Request) : Prop :=
  r.addr.toNat + r.access.length ≤ pagesOf s.decoder.memSize * 1024 ∧ r.addr.toNat % 8 + r.access.length ≤ 8

/-- A setup offset with a role (R8). -/
def RoleOffset (k : Nat) : Prop := k ≤ 4 ∨ k = 8 ∨ (16 ≤ k ∧ k ≤ 35)

/-- Some word the request touches has a role in the setup area (R3, step 3). -/
def TouchesRole (s : State) (r : Request) : Prop :=
  ∃ k, k < r.access.length ∧ setupFirst s ≤ r.addr.toNat ∧ RoleOffset (r.addr.toNat + k - setupFirst s)

/-- Word `a` lies in a window that is on (R5). -/
def InWindow (w : Window) (a : Nat) : Prop := w.base ≤ w.limit ∧ w.base * 1024 ≤ a ∧ a < (w.limit + 1) * 1024

/-- Word `a` lies, in RUN or HALTED, in the record of the served bay `b` (R3, R5). -/
def InRecord (s : State) (b : BayNo) (a : Nat) : Prop :=
  s.decoder.mode ≠ .pass ∧ s.decoder.windows.bays.base ≤ s.decoder.windows.bays.limit
    ∧ b.val < (s.decoder.windows.bays.limit - s.decoder.windows.bays.base + 1) * 64
    ∧ s.decoder.windows.bays.base * 1024 + b.val * 16 ≤ a ∧ a < s.decoder.windows.bays.base * 1024 + b.val * 16 + 16

/-! ## What a front-port request leaves -/

/-- `s` after a completion `c` to initiator `i`, but for what the owning block took: the completion and its count, with the
counter changed mark when a counter changes (R2, R17, R195). -/
def completed (s : State) (i : Initiator) (c : Completion) : State :=
  { s with
    front := ⟨none, some ⟨i, c⟩⟩
    counters := s.counters.afterCompletion c
    status :=
      { s.status with
        counterChanged := s.status.counterChanged || s.counters.afterCompletion c != s.counters } }

/-- `s` with the request `r` outstanding on path `p` (R12). -/
def outstanding (s : State) (r : Request) (p : Path) : State := { s with front := ⟨some ⟨r, p⟩, none⟩ }

/-! ## What a command leaves in the mailbox, the Front Port and the Status Writer -/

/-- The command of code `code` with the latched arguments (R189). -/
def taken (m : Mailbox) (code : Word) : Command := ⟨code, m.argA, m.argB, m.argC⟩

/-- BUSY with a command that waits, standing at `p` (R188, R189). -/
def busyMailbox (m : Mailbox) (code : Word) (p : Progress) : Mailbox :=
  { m with state := .busy, current := some (taken m code), progress := p }

/-- The mailbox after a command has finished with result `r` (R190). -/
def resultIn (m : Mailbox) (code : Word) (r : Result) : Mailbox :=
  { m with
    lastCode := code.setWidth 8
    lastResult := some r
    completions := m.completions + 1
    progress := .finished }

/-- `s` after a command word of code `code` is taken whose command waits, standing at `p`: a move out of DONE asks for a
rewrite (R188). -/
def commandWaits (s : State) (code : Word) (p : Progress) : State :=
  { s with
    front := ⟨none, none⟩
    mailbox := busyMailbox s.mailbox code p
    status := { s.status with wanted := s.status.wanted || s.mailbox.state == .done } }

/-- `s` after a command word of code `code` is taken whose command finishes at once with result `r`: its result word waits
for its burst (R190). -/
def commandFinished (s : State) (code : Word) (r : Result) : State :=
  { s with
    front := ⟨none, none⟩
    mailbox := resultIn (busyMailbox s.mailbox code .finished) code r
    status :=
      { s.status with wanted := s.status.wanted || s.mailbox.state == .done, resultPending := true } }

/-- `u` with the command word's own write outstanding (R9, R188), at the end of the step. -/
def commandStep (u : State) (i : Initiator) (code : Word) : State :=
  settle (outstanding u (setupWord u i 0 code) .commandWord)

/-- Row `c` of initiator `i` is a bay command of code `code` that is not refused at once (R69) and names bay `b`. -/
inductive BayCommand (s : State) (i : Initiator) : Instr → Word → BayNo → Prop where
  | mapTag (b : BayNo) (radio : s.decoder.windows.servesRadio s.mailbox.argA.toNat = true)
      (bay : s.mailbox.argB.toNat = b.val) (served : s.decoder.windows.servesBay b.val = true)
      (kind : s.mailbox.argC.toNat ≤ 1) : BayCommand s i (.mapTag i) 6 b
  | unmapTag (t : TagEntry) (named : s.link.tagMap.find? (fun x => x.radio.toNat == s.mailbox.argA.toNat) = some t) :
    BayCommand s i (.unmapTag i) 7 t.bay
  | setLoading (b : BayNo) (bay : s.mailbox.argA.toNat = b.val) (served : s.decoder.windows.servesBay b.val = true)
      (on : s.mailbox.argB.toNat ≤ 1) : BayCommand s i (.setLoading i) 8 b
  | forceDefrost (b : BayNo) (bay : s.mailbox.argA.toNat = b.val)
      (served : s.decoder.windows.servesBay b.val = true) : BayCommand s i (.forceDefrost i) 9 b
  | cancelDefrost (b : BayNo) (bay : s.mailbox.argA.toNat = b.val)
      (served : s.decoder.windows.servesBay b.val = true) : BayCommand s i (.cancelDefrost i) 10 b
  | assignFeeder (b : BayNo) (bay : s.mailbox.argA.toNat = b.val)
      (served : s.decoder.windows.servesBay b.val = true) (feeder : s.mailbox.argB.toNat ≤ 7) :
    BayCommand s i (.assignFeeder i) 12 b

/-! ## What a bay update leaves (R66) -/

/-- The entry as an update of bay `b` begins: the link state copied (R49). -/
def copied (s : State) (b : BayNo) : BayEntry := { s.bay b with link := (s.link.entryAt b).map TagEntry.track }

/-- The two bursts of an update of bay `b` whose record shows entry `e`: w0-w7, then w8-w11, or w8-w15 when `full`. -/
def twoBursts (s : State) (b : BayNo) (e : BayEntry) (full : Bool) : List RecordBurst :=
  [⟨b, s.decoder.windows.recordWord b, (e.recordWords b).take 8, false⟩,
   ⟨b, s.decoder.windows.recordWord b + 8, ((e.recordWords b).drop 8).take (if full then 8 else 4), true⟩]

/-- `s` after an update of bay `b` has begun whose entry is `e`, but for the notices and feeder reports it makes: the entry
in flight, the two bursts at the tail of the queue (R66), READY entries over the record back in QUEUED and a fetch of it
void (R169), and an outstanding read of it overtaken (R171). -/
def updateBegun (s : State) (b : BayNo) (e : BayEntry) (full : Bool) : State :=
  { s with
    bays := s.bays.set b { e with inFlight := true }
    bursts := s.bursts ++ twoBursts s b e full
    access :=
      { s.access with
        table :=
          s.access.table.map fun x =>
            if s.decoder.windows.bayAt x.key.addr.toNat = some b then { x with state := .queued } else x
        fetch :=
          s.access.fetch.map fun x =>
            if s.decoder.windows.bayAt x.key.addr.toNat = some b then { x with void := true } else x }
    front := { s.front with outstanding := s.front.outstanding.map fun o => { o with path := o.path.overtake b } } }

/-- The pending order when a START still pending is withdrawn (R84). -/
def startWithdrawn (d : DefrostRecord) : Option PendingOrder :=
  match d.pending with
  | some ⟨.start, _⟩ => none
  | p => p

/-- The Notice Writer's sources when a START of bay `b` still pending is withdrawn (R84, R158). -/
def withStartWithdrawn (q : Sources) (b : BayNo) (d : DefrostRecord) : Sources :=
  match d.pending with
  | some ⟨.start, _⟩ => { q with orders := q.orders.filter fun x => x.1 != b }
  | _ => q

/-- The report that releases the grant a defrost record holds: none for an engine grant (R81, R82). -/
def releaseReport (d : DefrostRecord) : List Report := (d.grantFeeder.map Report.release).toList

/-- Entry `e` with demand raised at yard time `now` and its power routed as R89 gives: what the bay's entry, the reports
of the update and the order list become. `e` is the entry in DUE but for its reason, with its timer stopped. -/
inductive Routed (startWindow : Nat) (now : Time) (b : BayNo) (e : BayEntry) (q : Sources) :
    BayEntry → List Report → Sources → Prop where
  /-- Shore power: QUEUED, at the tail of the assigned feeder's queue. -/
  | queued (held : e.readingHeld = true) (shore : e.reading.shorePower = true) :
    Routed startWindow now b e q { e with defrost := { e.defrost with reason := .queued } } [.joinQueue e.feeder now] q
  /-- An engine grant: ORDERED with a START pending. -/
  | engine (held : e.readingHeld = true) (shore : e.reading.shorePower = false) (diesel : e.kind = .diesel)
      (normal : e.fuel.state = .normal) :
    Routed startWindow now b e q
      { e with
        defrost :=
          { e.defrost with
            state := .ordered
            reason := .queued
            grantFeeder := none
            timer := .running startWindow startWindow
            orderNumber := nextOrderNumber e.defrost.orderNumber
            lastKind := some .start
            pending := some ⟨.start, none⟩ } }
      [] (q.orderPends b now)
  /-- HELD. -/
  | held (off : e.readingHeld = false ∨ (e.reading.shorePower = false ∧ (e.kind ≠ .diesel ∨ e.fuel.state ≠ .normal))) :
    Routed startWindow now b e q { e with defrost := { e.defrost with reason := .held } } [] q

/-- The defrost record of a bay whose grant of feeder `f` is revoked, by the table of R115: ORDERED goes to DUE, a START still
pending withdrawn and a posted one followed by a STOP; RUNNING and STOPPING go to SELF, RUNNING with a START still pending
withdrawn. -/
def revokedRecord (f : FeederNo) (d : DefrostRecord) : DefrostRecord :=
  let bare : DefrostRecord := { d with grantFeeder := none, timer := .stopped }
  match d.state, d.pending with
  | .ordered, some ⟨.start, _⟩ => { bare with state := .due, reason := .queued, pending := none }
  | .ordered, _ =>
    { bare with
      state := .due, reason := .queued, orderNumber := nextOrderNumber d.orderNumber, lastKind := some .stop,
      pending := some ⟨.stop, some f⟩ }
  | .running, _ => { bare with state := .self, pending := startWithdrawn d }
  | _, _ => { bare with state := .self }

/-- The sources when that record is revoked at yard time `now`: the bay leaves the order list with the START withdrawn, and
joins it, or keeps its place with the new time, with the STOP (R115, R158). -/
def revokedOrders (now : Time) (b : BayNo) (d : DefrostRecord) (q : Sources) : Sources :=
  match d.state, d.pending with
  | .ordered, some ⟨.start, _⟩ | .running, some ⟨.start, _⟩ =>
    { q with orders := q.orders.filter fun x => x.1 != b }
  | .ordered, _ => q.orderPends b now
  | _, _ => q

/-- An entry of the Delayed Read Table that the fetcher may present: QUEUED, with no update of its record in flight (R173). -/
def Fetchable (s : State) (e : DelayedEntry) : Prop :=
  e.state = .queued ∧ ∀ b, s.decoder.windows.bayAt e.key.addr.toNat = some b → (s.bay b).inFlight = false

/-! ## Taking a frame (R38-R52) -/

/-- The Link Tracker may take `e` from the head of the Inbox Queue (R38). -/
def Taking (s : State) (e : InboxEntry) (rest : List InboxEntry) : Prop :=
  Live s ∧ s.decoder.mode = .run ∧ s.inbox = e :: rest ∧ s.link.handOff = none

/-- The pending injection, where it names the radio of `e` (R40, R41). -/
def injected (s : State) (e : InboxEntry) : Option InjectKind :=
  match s.link.injection with
  | some (r, k) => if r = e.radio then some k else none
  | none => none

/-- The verdict on `e`: good by R32 and not made bad by a BAD_CHECK injection (R40, R41). -/
def Good (s : State) (e : InboxEntry) : Prop := injected s e ≠ some .badCheck ∧ e.frame.good e.radio = true

/-- The sequence of `e`, one more under a SKIP injection (R41). -/
def treated (s : State) (e : InboxEntry) : Seq := if injected s e = some .skip then e.frame.seq + 1 else e.frame.seq

/-- `s` after `e` has left the queue and used its injection, with one frame taken counted and then the counters changed by
`c` (R40). -/
def frameTaken (s : State) (e : InboxEntry) (rest : List InboxEntry) (c : Counters → Counters) : State :=
  { s with
    inbox := rest
    link := { s.link with injection := if (injected s e).isSome then none else s.link.injection }
    counters := c { s.counters with framesTaken := satAdd s.counters.framesTaken 1 }
    status :=
      { s.status with
        counterChanged :=
          s.status.counterChanged
            || c { s.counters with framesTaken := satAdd s.counters.framesTaken 1 } != s.counters } }

/-- The Tag Map entry of `t`'s radio becomes `t`. -/
def withEntry (s : State) (t : TagEntry) : State :=
  { s with link := { s.link with tagMap := s.link.tagMap.map fun x => if x.radio = t.radio then t else x } }

/-- The LINK condition of a change of track state (R48). -/
def withLinkCondition (s : State) (code : Code) (t : TagEntry) (arrival : Time) (value : Nat) : State :=
  { s with
    sources :=
      s.sources.raiseAlert t.bay .link ⟨code, arrival, .radio t.radio t.lastSeq, BitVec.ofNat 32 value⟩ }

/-! ## Expiries -/

/-- Timer `t` of bay `b` has run out in RUN: it was started with `n` seconds and has none left (R57). -/
def RunOut (s : State) (b : BayNo) (t : BayTimer) (n : Nat) : Prop :=
  Live s ∧ s.decoder.mode = .run ∧ (s.bay b).timer t = .running 0 n

/-- Row `c` is the expiry of timer `t` of bay `b`; the four defrost rows are told apart by the defrost state. -/
inductive ExpiryOf (s : State) (b : BayNo) : BayTimer → Instr → Prop where
  | silence : ExpiryOf s b .silence (.silenceExpiry b)
  | startWindow (state : (s.bay b).defrost.state = .ordered) : ExpiryOf s b .defrost (.startWindowExpiry b)
  | maxDefrost (state : (s.bay b).defrost.state = .running) : ExpiryOf s b .defrost (.maxDefrostExpiry b)
  | stopWindow (state : (s.bay b).defrost.state = .stopping) : ExpiryOf s b .defrost (.stopWindowExpiry b)
  | drain (state : (s.bay b).defrost.state = .draining) : ExpiryOf s b .defrost (.drainExpiry b)
  | door : ExpiryOf s b .door (.doorTimerExpiry b)

/-! ## Time -/

/-- `s` after `n` REFCLK periods with no yard tick among them: the second base counts them, and the reclaim timers and the
hold timer lose them (R184, R193). -/
def afterPeriods (n : Nat) (s : State) : State :=
  { s with
    clock := ⟨s.clock.time, s.clock.base + n⟩
    access :=
      { s.access with
        table :=
          s.access.table.map fun e =>
            match e.state with
            | .ready data left => ⟨e.key, .ready data (left - n)⟩
            | .queued => e
        lock := s.access.lock.map fun l => { l with left := l.left - n } } }

/-! ## Memory, byte by byte -/

/-- `m'` is `m` after the words `ws` have been written from word address `a` on, each under its lane mask: a byte whose lane
is set takes the written lane, and every other byte of memory is as it was (R12). -/
def MemoryWritten (m m' : Memory) (a : Nat) (ws : List (Mask × Word)) : Prop :=
  ∀ x : Nat,
    m'.read x =
      if a ≤ x / 4 then
        match ws[x / 4 - a]? with
        | some (mask, w) => if mask.getLsbD (x % 4) then w.extractLsb' (8 * (x % 4)) 8 else m.read x
        | none => m.read x
      else m.read x

/-! ## Parameters (R192) -/

/-- The parameter of number `a`. -/
def paramOf (p : Params) : Nat → Option Nat
  | 0 => some p.silenceLimit
  | 1 => some p.startWindow
  | 2 => some p.maxDefrost
  | 3 => some p.stopWindow
  | 4 => some p.drainTime
  | 5 => some p.restoreDelay
  | 6 => some p.reclaimTime
  | 7 => some p.lockHoldLimit
  | 8 => some p.proofCount
  | 9 => some p.lapseCount
  | 10 => some p.iceConfirm
  | 11 => some p.maxAttempts
  | _ => none

/-- The range of the parameter of number `a`. -/
def paramRange : Nat → Option (Nat × Nat)
  | 0 => some (60, 3600)
  | 1 => some (30, 900)
  | 2 => some (600, 5400)
  | 3 => some (30, 900)
  | 4 => some (0, 1800)
  | 5 => some (0, 600)
  | 6 => some (100, 10000)
  | 7 => some (100, 50000)
  | 8 => some (2, 3)
  | 9 => some (2, 8)
  | 10 => some (1, 8)
  | 11 => some (1, 7)
  | _ => none

/-! ## Invariants -/

/-- Record memory keeps its canonical form (log 1, log 30). -/
def MemoryCanonical (s : State) : Prop := s.mem.wf = true

/-- R178: no update of the locked bay's record is in flight. -/
def LockLaw (s : State) : Prop := ∀ l, s.access.lock = some l → (s.bay l.bay).inFlight = false

/-- The Inbox Queue and the Delayed Read Table keep their bounds, no two delayed entries match, and the second base's count
is not complete (R22, R172, R193). -/
def TablesBounded (s : State) : Prop :=
  s.inbox.length ≤ 16 ∧ s.access.table.length ≤ 4 ∧ (s.access.table.map DelayedEntry.key).Nodup
    ∧ s.clock.base < 1000000

/-- A page of a window that is on. -/
def Window.HasPage (w : Window) (p : Nat) : Prop := w.base ≤ p ∧ p ≤ w.limit

/-- R7: every window that is on lies inside memory, holds an allowed number of pages, leaves the setup page out and shares
no page with another; in RUN and HALTED all three are on. -/
def WindowsValid (s : State) : Prop :=
  (∀ n, (s.decoder.windows.get n).on = true →
      (s.decoder.windows.get n).limit < pagesOf s.decoder.memSize
        ∧ pagesAllowed ((s.decoder.windows.get n).pages) n = true
        ∧ ¬ (s.decoder.windows.get n).HasPage (pagesOf s.decoder.memSize - 1)
        ∧ ∀ k, k ≠ n → ∀ p, (s.decoder.windows.get n).HasPage p → ¬ (s.decoder.windows.get k).HasPage p)
    ∧ (s.decoder.mode ≠ .pass → ∀ n, (s.decoder.windows.get n).on = true)

/-- R159: no alert, feeder or TAG source has two slots of the ring shadow. -/
def ShadowUnique (s : State) : Prop :=
  ∀ (i j : Fin 256) (x : Source), s.ring.shadow[i] = some x → s.ring.shadow[j] = some x → (∀ b, x ≠ .order b) → i = j

/-- R108: a feeder that is not ACTIVE has an empty grant list, and no grant list holds more than 8 bays; R105: the
capacity is 0-8. -/
def FeederLaw (s : State) : Prop :=
  ∀ f, ((s.feeder f).state ≠ .active → (s.feeder f).grants = []) ∧ (s.feeder f).grants.length ≤ 8
    ∧ (s.feeder f).capacity ≤ 8

/-- R15, R168: in PASS nothing is queued, locked, delayed or fetched, and no bay-record request is outstanding. -/
def PassQuiet (s : State) : Prop :=
  s.decoder.mode = .pass →
    s.inbox = [] ∧ s.access.lock = none ∧ s.access.table = [] ∧ s.access.fetch = none
      ∧ ∀ o, s.front.outstanding = some o → ∀ b v, o.path ≠ .bayRead b v ∧ o.path ≠ .settings b

/-- The bursts of one bay in the record writer's queue. -/
def burstsOf (s : State) (b : BayNo) : List RecordBurst := s.bursts.filter fun x => x.bay == b

/-- R66: a bay with no update in flight has no burst queued; one with an update in flight has its last burst queued, behind
at most the first. -/
def BurstsFollowUpdates (s : State) : Prop :=
  ∀ b, ((s.bay b).inFlight = false → burstsOf s b = [])
    ∧ ((s.bay b).inFlight = true →
        ∃ y, y.ends = true ∧ (burstsOf s b = [y] ∨ ∃ x, x.ends = false ∧ burstsOf s b = [x, y]))

/-- R67, R70, R71, R178: events wait only while an update is in flight, and are held or deferred only while the bay is
locked. -/
def EventsInOrder (s : State) : Prop :=
  LockLaw s ∧ ∀ b, ((s.bay b).inFlight = false → (s.bay b).waiting = [])
    ∧ (s.locked b = false → (s.bay b).held = [] ∧ (s.bay b).deferred = none)

/-- A command is run from its taking to its result word, one at a time (R14, R69, R71, R187-R190): the mailbox is BUSY while a
command is current; a command that waits stands where its progress says, and is in no other list of events; one that has
finished has its result word pending or presented; and only bay commands wait at a bay, an UNMAP_TAG at the bay its radio
is mapped to. -/
def CommandLaw (s : State) : Prop :=
  (s.mailbox.state = .busy ↔ s.mailbox.current ≠ none) ∧ (s.mailbox.state = .busy ↔ s.mailbox.progress ≠ .none)
    ∧ (s.mailbox.progress = .finished ↔ s.status.resultPending = true ∨ ∃ w, s.status.presented = some (.result w))
    ∧ (s.status.resultPending = true → ∀ w, s.status.presented ≠ some (.result w))
    ∧ (s.mailbox.progress = .halting → s.decoder.mode = .halted)
    ∧ (∀ b,
        (s.mailbox.progress = .awaitsTurn b ↔ .command ∈ (s.bay b).waiting)
          ∧ (s.bay b).waiting.count .command ≤ 1 ∧ .command ∉ (s.bay b).held
          ∧ (s.mailbox.progress = .awaitsUnlock b → s.locked b = true)
          ∧ (s.mailbox.progress = .updating b → (s.bay b).inFlight = true)
          ∧ (∀ cmd, (s.mailbox.progress = .awaitsTurn b ∨ s.mailbox.progress = .awaitsUnlock b) →
              s.mailbox.current = some cmd →
              cmd.code.toNat ∈ [6, 7, 8, 9, 10, 12]
                ∧ (cmd.code = 7 → ∃ t ∈ s.link.tagMap, t.radio.toNat = cmd.a.toNat ∧ t.bay = b)))

/-- R36, R57: a bay is OCCUPIED exactly while one Tag Map entry names it, with that entry's radio; no radio has two entries.
A VACANT bay has no radio and is in IDLE with no order pending (R77, R79), and while no reading is held it is all zero
(R58, R64, R76). -/
def OccupancyAgrees (s : State) : Prop :=
  (s.link.tagMap.map TagEntry.radio).Nodup ∧ (s.link.tagMap.map TagEntry.bay).Nodup
    ∧ (∀ t ∈ s.link.tagMap, (s.bay t.bay).occupied = true ∧ (s.bay t.bay).radio = some t.radio)
    ∧ ∀ b,
        ((s.bay b).occupied = true → ∃ t ∈ s.link.tagMap, t.bay = b)
          ∧ ((s.bay b).occupied = false →
              (s.bay b).radio = none ∧ (s.bay b).defrost.state = .idle ∧ (s.bay b).defrost.pending = none)
          ∧ ((s.bay b).readingHeld = false → (s.bay b).reading = .zero)

/-- R158: the order list holds, once each, the bays with an order pending. -/
def OrdersAgree (s : State) : Prop :=
  (s.sources.orders.map Prod.fst).Nodup
    ∧ ∀ b, b ∈ s.sources.orders.map Prod.fst ↔ (s.bay b).defrost.pending ≠ none

/-- R107, R108, R109: a feeder's grant list holds, once each, the bays in ORDERED, RUNNING or STOPPING with it as grant feeder;
its wait queue, once each, the bays assigned to it that are DUE with reason QUEUED; its self-started count is the number of
bays assigned to it in SELF. A grant is of the assigned feeder, and a bay that holds no grant has no grant feeder (R81). -/
def FeedersAgree (s : State) : Prop :=
  (∀ f,
      (s.feeder f).grants.Nodup
        ∧ (∀ b, b ∈ (s.feeder f).grants ↔
            (s.bay b).defrost.state.granted = true ∧ (s.bay b).defrost.grantFeeder = some f)
        ∧ ((s.feeder f).queue.map Prod.fst).Nodup
        ∧ (∀ b, b ∈ (s.feeder f).queue.map Prod.fst ↔
            (s.bay b).defrost.state = .due ∧ (s.bay b).defrost.reason = .queued ∧ (s.bay b).feeder = f)
        ∧ (s.feeder f).selfCount =
          s.bays.toList.countP fun e => e.defrost.state == .self && e.feeder == f)
    ∧ ∀ b f, (s.bay b).defrost.grantFeeder = some f → (s.bay b).defrost.state.granted = true ∧ (s.bay b).feeder = f

/-- The tables of the blocks agree with one another. -/
def TablesAgree (s : State) : Prop := CommandLaw s ∧ OccupancyAgrees s ∧ OrdersAgree s ∧ FeedersAgree s

end Sys2Proof.Machine
end

