-- ==== Sys2Proof/Certificates/Slice0/Obligations.lean ====
section
/-! DEFINITION. The statements for the provers, in the vocabulary of Sys2Proof/Safety.lean. "log n" names a row of the assumption
log (notes/assumptions). -/

open Sys2Proof Sys2Proof.Machine

/-! ## The queue, the front port and the pins -/

/-- O1. A step takes the command at the front of the queue and runs it on the state with the rest of the queue. -/
def Obligations.StepRunsTheFrontCommand : Prop :=
  ∀ (c : Instr) (s : State), step { s with pending := c :: s.pending } = exec c s

/-- O2. A command stops only where no bus can carry it (log 17): every well-formed command answers a next state, in every
state, and an ill-formed one is refused by name. While RESET_N is low no event but a pin's occurs (R18), and while a request
is outstanding no further one is presented (R1; log 6). -/
def Obligations.OnlyIllFormedCommandsStop : Prop :=
  (∀ (c : Instr) (s : State),
      (c.wellFormed = true → ∃ t, exec c s = .next t) ∧ (c.wellFormed = false → exec c s = .refused .illFormed))
    ∧ (∀ (c : Instr) (s : State), c.wellFormed = true →
      (s.pins.resetN = false → movesPin c = false → exec c s = .next s)
        ∧ (Live s → s.front.outstanding ≠ none → requestOf s c ≠ none → exec c s = .next s))

/-- O3. Every front-port and command-word row is the presentation of the request it spells (log 7). -/
def Obligations.RowsPresentTheirRequest : Prop :=
  ∀ (c : Instr) (r : Request) (s : State), requestOf s c = some r → c.wellFormed = true →
    exec c s = exec (.plainRequest r) s

/-- O4. RESET_N is released: every block takes its value (R4, R18, R37, R58, R106, R153, R168, R187, R192-R195), memory and
the queue are kept, and the first status rewrite, generation 1, has its first burst presented (R198). -/
def Obligations.ReleaseOfResetSetsEveryBlock : Prop :=
  ∀ (s : State) (m : BitVec 2), s.pins.resetN = false →
    ∃ t, exec (.resetNRelease m) s = .next t
      ∧ t.pending = s.pending ∧ t.mem = s.mem
      ∧ t.pins = { s.pins with resetN := true, memsize := m, attnN := true }
      ∧ t.front = ⟨none, none⟩
      ∧ t.decoder = ⟨m, .pass, ⟨⟨1023, 0⟩, ⟨1023, 0⟩, ⟨1023, 0⟩⟩⟩
      ∧ t.arbiter = ⟨.passThrough, none⟩
      ∧ t.counters = ⟨0, 0, 0, 0, 0, 0, 0, 0, 0, 0, 0, 0⟩
      ∧ t.inbox = []
      ∧ t.link.tagMap = [] ∧ (∀ k : Fin 16, t.link.unknown[k] = none) ∧ t.link.injection = none ∧ t.link.handOff = none
      ∧ (∀ b : BayNo, t.bay b =
          { occupied := false, radio := none, kind := .diesel, occStart := 0, link := none, loading := false,
            silent := false, silentSince := 0, readingHeld := false,
            reading := ⟨false, false, false, false, 0, 0, 0, 0, 0, 0, 0, 0⟩,
            settings := ⟨250, 100, 300, 2700, 360, 20, -5, 50, 30⟩,
            defrost := ⟨.idle, .queued, 0, 0, .stopped, none, 0, none, none, none⟩,
            fuel := ⟨.normal, none⟩, door := ⟨.closed, 0, 0, .stopped⟩,
            feeder := ⟨b.val / 20, by omega⟩, silence := .stopped, inFlight := false, waiting := [], held := [],
            deferred := none }) ∧ t.bursts = []
      ∧ (∀ f : FeederNo, t.feeder f = ⟨if s.pins.feederOk[f] then .active else .tripped, 2, [], 0, [], .stopped, 0⟩)
      ∧ (∀ i : Fin 640, t.sources.alerts[i] = none) ∧ (∀ f : Fin 8, t.sources.feeders[f] = none)
      ∧ (∀ k : Fin 16, t.sources.tags[k] = false) ∧ t.sources.orders = []
      ∧ t.ring.producer = 0 ∧ t.ring.consumer = 0 ∧ (∀ i : Fin 256, t.ring.shadow[i] = none) ∧ t.ring.scan = 639
      ∧ t.ring.inFlight = none
      ∧ t.access = ⟨[], none, none⟩
      ∧ t.mailbox = ⟨.idle, 0, 0, 0, none, .none, 0, none, 0⟩
      ∧ t.params = ⟨600, 180, 2700, 180, 300, 60, 1000, 2000, 2, 4, 3, 3⟩
      ∧ t.clock = ⟨0, 0⟩
      ∧ (∃ ws : List Word, t.status.presented = some (.block 1 ws) ∧ ws.length = 8 ∧ ws[0]? = some 0x00010000
          ∧ ws[2]? = some 0)
      ∧ t.status.rewrite = some 1 ∧ t.status.generation = 1 ∧ t.status.wanted = false
      ∧ t.status.resultPending = false ∧ t.status.counterChanged = false
      ∧ t.status.causeShown = s.pins.feederOk.any (fun high => !high)

/-- O5. RESET_N falls (R18): the outstanding request gets no completion, each word of a burst under way is wholly written or
wholly as it was, no other byte of memory changes, and ATTN_N is high (R167). With no burst that writes, memory is as it
was; and a result word burst under way writes nothing (R187; log 33). A fall while RESET_N is low changes nothing. -/
def Obligations.ResetFallCutsOneBurst : Prop :=
  ∀ s : State,
    (s.pins.resetN = false → exec .resetNFall s = .next s)
      ∧ (s.pins.resetN = true →
          ∃ t, exec .resetNFall s = .next t
            ∧ t.front = ⟨none, none⟩ ∧ t.pins = { s.pins with resetN := false, attnN := true } ∧ t.pending = s.pending
            ∧ ((∀ q, s.arbiter.granted = some q → s.burst q = none) → t.mem = s.mem)
            ∧ (∀ w, s.arbiter.granted = some .status → s.status.presented = some (.result w) → t.mem = s.mem)
            ∧ ∀ q a ws, s.arbiter.granted = some q → s.burst q = some (a, ws) → s.mem.wf = true →
                ∃ written : List Bool, written.length = ws.length
                  ∧ MemoryWritten s.mem t.mem a
                      ((written.zip ws).map fun p => (if p.1 then p.2.1 else 0, p.2.2)))

/-! ## Front-port requests -/

/-- O6. Requests that pass to memory as plain requests (R3, R8, R12, R13): shaped, and either a read that touches a role
word, or one that touches none and lies in PASS, outside all three windows, or is a RING read. -/
def Obligations.PlainRequestsPassToMemory : Prop :=
  ∀ (r : Request) (s : State), r.wellFormed = true → Accepts s → NotHolder s r.initiator → WindowsValid s →
    Shaped s r → r.lock = false →
    ((TouchesRole s r ∧ ∃ n, r.access = .read n)
      ∨ (¬ TouchesRole s r ∧ s.decoder.mode = .pass)
      ∨ (¬ TouchesRole s r ∧ s.decoder.mode ≠ .pass ∧ ¬ InWindow s.decoder.windows.inbox r.addr.toNat
          ∧ ¬ InWindow s.decoder.windows.bays r.addr.toNat
          ∧ (InWindow s.decoder.windows.ring r.addr.toNat → ∃ n, r.access = .read n))) →
    exec (.plainRequest r) s = .next (settle (outstanding s r .plain))

/-- O7. Requests answered REFUSE for their shape, their lock flag or their window (R3, R13, R20, R21), and writes that touch a
role word of the setup area and are not the single full-lane write of the command word, an argument word or the consumer
index (R8): each is counted once (R17) and nothing else of the part changes. -/
def Obligations.RefusedRequestsAreCounted : Prop :=
  (∀ (r : Request) (s : State), r.wellFormed = true → Accepts s → (r.lock = true ∨ NotHolder s r.initiator) →
      WindowsValid s →
      (¬ Shaped s r
        ∨ (Shaped s r ∧ r.lock = true ∧ ∀ b, ¬ InRecord s b r.addr.toNat)
        ∨ (Shaped s r ∧ r.lock = false ∧ s.decoder.mode ≠ .pass ∧ InWindow s.decoder.windows.inbox r.addr.toNat
            ∧ (s.decoder.mode = .halted ∨ (∃ n, r.access = .read n)
              ∨ ∃ ws, r.access = .write ws
                  ∧ (ws.length ≠ 4 ∨ r.addr.toNat % 4 ≠ 0 ∨ (∃ w ∈ ws, w.1 ≠ 15)
                    ∨ r.addr.toNat = s.decoder.windows.inbox.base * 1024)))
        ∨ (Shaped s r ∧ s.decoder.mode ≠ .pass ∧ InWindow s.decoder.windows.bays r.addr.toNat
            ∧ ((∀ b, ¬ InRecord s b r.addr.toNat) ∨ (r.addr.toNat % 16 < 12 ∧ ∃ ws, r.access = .write ws)))
        ∨ (Shaped s r ∧ r.lock = false ∧ s.decoder.mode ≠ .pass ∧ InWindow s.decoder.windows.ring r.addr.toNat
            ∧ ∃ ws, r.access = .write ws)) →
      exec (.plainRequest r) s = .next (settle (completed s r.initiator .refuse)))
    ∧ (∀ (r : Request) (ws : List (Mask × Word)) (s : State), r.wellFormed = true → Accepts s → NotHolder s r.initiator →
      Shaped s r → r.lock = false → r.access = .write ws → TouchesRole s r →
      (ws.length ≠ 1 ∨ (∃ w ∈ ws, w.1 ≠ 15) ∨ r.addr.toNat = setupFirst s + 4 ∨ setupFirst s + 16 ≤ r.addr.toNat) →
      exec (.plainRequest r) s = .next (settle (completed s r.initiator .refuse)))

/-- O8. A write of the right frame shape in RUN is added to the Inbox Queue with its slot's radio address and the yard
time and answered DONE while the queue holds 0-15 entries, and answered RETRY while it holds 16 (R20, R23, R24). -/
def Obligations.InboxFrameIsTakenOrRetried : Prop :=
  ∀ (i : Initiator) (a : WordAddr) (w0 w1 w2 w3 : Word) (n : RadioAddr) (s : State), Accepts s → NotHolder s i →
    WindowsValid s → s.decoder.mode = .run → InWindow s.decoder.windows.inbox a.toNat →
    a.toNat = s.decoder.windows.inbox.base * 1024 + n.toNat * 4 → n ≠ 0 →
    (s.inbox.length ≤ 15 →
        exec (.inboxFrameWrite i a [(15, w0), (15, w1), (15, w2), (15, w3)]) s =
          .next
            (settle (completed { s with inbox := s.inbox ++ [⟨⟨w0, w1, w2, w3⟩, n, s.clock.time⟩] } i (.done []))))
      ∧ (16 ≤ s.inbox.length →
        exec (.inboxFrameWrite i a [(15, w0), (15, w1), (15, w2), (15, w3)]) s =
          .next (settle (completed s i .retry)))

/-- O9. A bay-record read without the lock flag is answered by the first row that applies (R170, R172, R174). One with the lock
flag: with no lock held it is retried while an update is in flight and otherwise establishes the lock (R179); with a lock held
it is answered by the holder and the bay of that lock (R180). -/
def Obligations.BayRecordReadsAreAnswered : Prop :=
  (∀ (i : Initiator) (a : WordAddr) (n : Nat) (b : BayNo) (s : State), Accepts s → NotHolder s i → WindowsValid s →
        InRecord s b a.toNat → 1 ≤ n → a.toNat % 8 + n ≤ 8 →
        ((∃ l, s.access.lock = some l ∧ l.bay = b) →
            exec (.bayRecordRead i a n) s = .next (settle (completed s i .retry)))
          ∧ ((∀ l, s.access.lock = some l → l.bay ≠ b) → (s.bay b).inFlight = true →
              exec (.bayRecordRead i a n) s =
                .next
                  (settle
                    (completed
                      { s with
                        access :=
                          { s.access with
                            table :=
                              if (∀ e ∈ s.access.table, e.key ≠ ⟨i, a, n⟩) ∧ s.access.table.length < 4 then
                                s.access.table ++ [⟨⟨i, a, n⟩, .queued⟩]
                              else s.access.table } }
                      i .retry)))
          ∧ ((∀ l, s.access.lock = some l → l.bay ≠ b) → (s.bay b).inFlight = false →
              (∀ data left, s.access.table.find? (fun e => e.key == ⟨i, a, n⟩) = some ⟨⟨i, a, n⟩, .ready data left⟩ →
                  exec (.bayRecordRead i a n) s =
                    .next
                      (settle
                        (completed
                          { s with
                            access :=
                              { s.access with table := s.access.table.filter fun e => e.key != ⟨i, a, n⟩ } }
                          i (.done data))))
                ∧ (s.access.table.find? (fun e => e.key == ⟨i, a, n⟩) = some ⟨⟨i, a, n⟩, .queued⟩ →
                    exec (.bayRecordRead i a n) s = .next (settle (completed s i .retry)))
                ∧ ((∀ e ∈ s.access.table, e.key ≠ ⟨i, a, n⟩) →
                    exec (.bayRecordRead i a n) s =
                      .next (settle (outstanding s ⟨i, a, false, .read n⟩ (.bayRead b false))))))
    ∧ (∀ (i : Initiator) (a : WordAddr) (n : Nat) (b : BayNo) (s : State), Accepts s → WindowsValid s →
        InRecord s b a.toNat → 1 ≤ n → a.toNat % 8 + n ≤ 8 →
        (s.access.lock = none → (s.bay b).inFlight = true →
            exec (.lockedBayRecordRead i a n) s = .next (settle (completed s i .retry)))
          ∧ (s.access.lock = none → (s.bay b).inFlight = false →
              exec (.lockedBayRecordRead i a n) s =
                .next
                  (settle
                    (outstanding
                      { s with
                        access := { s.access with lock := some ⟨i, b, s.params.lockHoldLimit⟩ }
                        status := { s.status with wanted := true } }
                      ⟨i, a, true, .read n⟩ (.bayRead b false))))
          ∧ (∀ l, s.access.lock = some l →
              (l.holder = i → l.bay = b →
                  exec (.lockedBayRecordRead i a n) s =
                    .next (settle (outstanding s ⟨i, a, true, .read n⟩ (.bayRead b false))))
                ∧ (l.holder = i → l.bay ≠ b →
                    exec (.lockedBayRecordRead i a n) s = .next (settle (completed s i .refuse)))
                ∧ (l.holder ≠ i → exec (.lockedBayRecordRead i a n) s = .next (settle (completed s i .retry)))))

/-- O10. The settings stand in words 12-15 as R59 gives; they are in range exactly when all nine values are (R59); and a
settings write that begins at record word 12 + k replaces in them every lane its masks set, and no other (R60). -/
def Obligations.SettingsAreMergedAndJudged : Prop :=
  (∀ x : Settings,
      x.words =
          [x.fuelLow ++ x.fuelCritical, x.doorLimit ++ x.loadingDoorLimit,
            x.defrostInterval ++ x.iceMargin ++ x.coilIcePoint, x.fuelDrop ++ x.fuelHysteresis]
        ∧ (x.inRange = true ↔
          (20 ≤ x.fuelLow.toNat ∧ x.fuelLow.toNat ≤ 900) ∧ x.fuelCritical.toNat + 1 ≤ x.fuelLow.toNat
            ∧ (30 ≤ x.doorLimit.toNat ∧ x.doorLimit.toNat ≤ 65535)
            ∧ (x.doorLimit.toNat ≤ x.loadingDoorLimit.toNat ∧ x.loadingDoorLimit.toNat ≤ 65535)
            ∧ (60 ≤ x.defrostInterval.toNat ∧ x.defrostInterval.toNat ≤ 1440)
            ∧ (0 ≤ x.iceMargin.toNat ∧ x.iceMargin.toNat ≤ 255)
            ∧ (-40 ≤ x.coilIcePoint.toInt ∧ x.coilIcePoint.toInt ≤ 10)
            ∧ (10 ≤ x.fuelDrop.toNat ∧ x.fuelDrop.toNat ≤ 500)
            ∧ (5 ≤ x.fuelHysteresis.toNat ∧ x.fuelHysteresis.toNat ≤ 200)))
    ∧ ∀ (x : Settings) (k : Nat) (ws : List (Mask × Word)), k + ws.length ≤ 4 →
      ∀ (n lane : Nat) (old : Word), n < 4 → lane < 4 → x.words[n]? = some old →
        ∃ new, (x.merge k ws).words[n]? = some new
          ∧ (∀ mask v, k ≤ n → ws[n - k]? = some (mask, v) → mask.getLsbD lane = true →
              new.extractLsb' (8 * lane) 8 = v.extractLsb' (8 * lane) 8)
          ∧ ((n < k ∨ k + ws.length ≤ n ∨ ∃ mask v, ws[n - k]? = some (mask, v) ∧ mask.getLsbD lane = false) →
              new.extractLsb' (8 * lane) 8 = old.extractLsb' (8 * lane) 8)

/-- O11. A settings write to record words 12 + k on is judged on the merged settings: out of range it is refused; in range it
is answered by the lock and the update in flight, or goes forward: the Bay Table takes the merged settings and the touched words pass to memory
with all lanes (R60, R177, R180). -/
def Obligations.SettingsWriteIsAnswered : Prop :=
  ∀ (i : Initiator) (a : WordAddr) (lock : Bool) (ws : List (Mask × Word)) (b : BayNo) (k : Nat) (s : State),
    Accepts s → (lock = true ∨ NotHolder s i) → WindowsValid s → InRecord s b a.toNat →
    a.toNat % 16 = 12 + k → 1 ≤ ws.length → k + ws.length ≤ 4 →
    (((s.bay b).settings.merge k ws).inRange = false →
        exec (.settingsWrite i a lock ws) s = .next (settle (completed s i .refuse)))
      ∧ (((s.bay b).settings.merge k ws).inRange = true →
    ((∃ l, s.access.lock = some l ∧ lock = true ∧ l.holder = i ∧ l.bay ≠ b) →
        exec (.settingsWrite i a lock ws) s = .next (settle (completed s i .refuse)))
      ∧ ((∃ l, s.access.lock = some l ∧ l.holder ≠ i ∧ (lock = true ∨ l.bay = b)) →
          exec (.settingsWrite i a lock ws) s = .next (settle (completed s i .retry)))
      ∧ ((∀ l, s.access.lock = some l → (lock = true ∧ l.holder = i ∧ l.bay = b) ∨ (lock = false ∧ l.bay ≠ b)) →
          ((s.bay b).inFlight = true →
              exec (.settingsWrite i a lock ws) s = .next (settle (completed s i .retry)))
            ∧ ((s.bay b).inFlight = false →
              exec (.settingsWrite i a lock ws) s =
                .next
                  (settle
                    (outstanding
                      { s with bays := s.bays.set b { s.bay b with settings := (s.bay b).settings.merge k ws } }
                      ⟨i, a, lock,
                        .write ((((s.bay b).settings.merge k ws).words.drop k |>.take ws.length).map fun w => (15, w))⟩
                      (.settings b))))))

/-- O12. A request of the lock's holder without the lock flag releases the lock at presentation, before it is judged, whatever
it is (R181): it is then decoded as on the state the release leaves, in which no lock is held. The release (R71, R183): with
nothing set aside and no room on the bay's feeder the lock is gone and a rewrite is asked for; in all cases the deferred
frame, the held events and the waiting command become the bay's waiting events in that order, the Check Engine turns to them,
and the Feeder Arbiter acts on the bay's feeder. -/
def Obligations.HolderReleasesTheLockFirst : Prop :=
  (∀ (r : Request) (l : BayLock) (s : State), r.wellFormed = true → Accepts s → s.access.lock = some l →
      l.holder = r.initiator → r.lock = false →
      ∃ s1, s1 = noticeSettle (releaseLock { s with front := ⟨none, none⟩ })
        ∧ s1.access.lock = none ∧ s1.status.wanted = true
        ∧ exec (.plainRequest r) s = exec (.plainRequest r) s1)
    ∧ (∀ (l : BayLock) (s : State), s.access.lock = some l →
      let b := l.bay
      let e := s.bay b
      let free : State := { s with access := { s.access with lock := none } }
      (e.waiting = [] → e.held = [] → e.deferred = none → s.mailbox.progress ≠ .awaitsUnlock b →
          (s.feeder e.feeder).capacity ≤ (s.feeder e.feeder).grants.length + (s.feeder e.feeder).selfCount →
          releaseLock s = { free with status := { s.status with wanted := true } })
        ∧ ∀ events u, 
            events =
              (match e.deferred with | some h => [.deferredFrame h] | none => []) ++ e.held
                ++ (if s.mailbox.progress = .awaitsUnlock b then [.command] else []) →
            u =
              turn b
                { free with
                  bays := s.bays.set b { e with waiting := events, held := [], deferred := none }
                  mailbox :=
                    { s.mailbox with
                      progress :=
                        if s.mailbox.progress = .awaitsUnlock b then .awaitsTurn b else s.mailbox.progress } } →
            releaseLock s = (act (u.bay b).feeder u).wantRewrite)

/-! ## The setup area -/

/-- O13. An argument write is retried while the mailbox is BUSY and otherwise passes to memory, to be latched (R9). A command
word of 0 passes to memory; in DONE the mailbox goes to IDLE and a rewrite is asked for, in IDLE it is unchanged (R188). -/
def Obligations.ArgumentAndZeroWordsAreAnswered : Prop :=
  (∀ (i : Initiator) (x : ArgName) (v : Word) (s : State), Accepts s → NotHolder s i →
      (s.mailbox.state = .busy → exec (.argumentWrite i x v) s = .next (settle (completed s i .retry)))
        ∧ (s.mailbox.state ≠ .busy →
            exec (.argumentWrite i x v) s =
              .next
                (settle
                  (outstanding s (setupWord s i (match x with | .a => 1 | .b => 2 | .c => 3) v) (.argument x)))))
    ∧ (∀ (i : Initiator) (s : State), Accepts s → NotHolder s i →
      (s.mailbox.state = .idle →
          exec (.commandWordZero i) s = .next (settle (outstanding s (setupWord s i 0 0) .commandWord)))
        ∧ (s.mailbox.state = .done →
            exec (.commandWordZero i) s =
              .next
                (settle
                  (outstanding
                    { s with
                      mailbox := { s.mailbox with state := .idle }
                      status := { s.status with wanted := true } }
                    (setupWord s i 0 0) .commandWord))))

/-- O14. A consumer index in span is accepted: the consumer copy takes it, each slot passed over loses its source in the
shadow, a status rewrite is asked for and the word passes to memory; a value out of span is refused (R11, R163). -/
def Obligations.ConsumerIndexWriteIsAnswered : Prop :=
  ∀ (i : Initiator) (v : Word) (s : State), Accepts s → NotHolder s i →
    ((255 < v.toNat ∨ (s.ring.producer - s.ring.consumer).toNat < (v.setWidth 8 - s.ring.consumer).toNat) →
        exec (.consumerIndexWrite i v) s = .next (settle (completed s i .refuse)))
      ∧ (v.toNat ≤ 255 → (v.setWidth 8 - s.ring.consumer).toNat ≤ (s.ring.producer - s.ring.consumer).toNat →
          ∃ shadow : Vector (Option Source) 256,
            (∀ n : Fin 256,
                ((BitVec.ofNat 8 n.val - s.ring.consumer).toNat < (v.setWidth 8 - s.ring.consumer).toNat →
                    shadow[n] = none)
                  ∧ ((v.setWidth 8 - s.ring.consumer).toNat ≤ (BitVec.ofNat 8 n.val - s.ring.consumer).toNat →
                    shadow[n] = s.ring.shadow[n]))
              ∧ exec (.consumerIndexWrite i v) s =
                .next
                  (settle
                    (outstanding
                      { s with
                        ring := { s.ring with consumer := v.setWidth 8, shadow := shadow }
                        status := { s.status with wanted := true } }
                      (setupWord s i 8 v) .consumerIndex)))

/-- O15. While the mailbox is BUSY every command word, 0 and the unknown codes among them, is answered RETRY and nothing but
its count changes (R188, R194). -/
def Obligations.BusyMailboxRetriesCommandWords : Prop :=
  ∀ (c : Instr) (i : Initiator) (v : Word) (s : State), c.wellFormed = true →
    requestOf s c = some (setupWord s i 0 v) → Accepts s → NotHolder s i → s.mailbox.state = .busy →
    exec c s = .next (settle (completed s i .retry))

/-! ## Commands that complete at once -/

/-- O16. SET_WINDOW follows the table of R6, the first case that applies. -/
def Obligations.SetWindowFollowsItsTable : Prop :=
  ∀ (i : Initiator) (s : State), Open s i →
    (s.decoder.mode ≠ .pass → exec (.setWindow i) s = .next (commandStep (commandFinished s 1 .badState) i 1))
      ∧ (s.decoder.mode = .pass → 2 < s.mailbox.argA.toNat →
          exec (.setWindow i) s = .next (commandStep (commandFinished s 1 .badArg) i 1))
      ∧ ∀ n : WindowName, s.decoder.mode = .pass →
          s.mailbox.argA.toNat = (match n with | .inbox => 0 | .bays => 1 | .ring => 2) →
          (s.mailbox.argC.toNat < s.mailbox.argB.toNat →
              exec (.setWindow i) s =
                .next
                  (commandStep
                    { commandFinished s 1 .ok with
                      decoder := { s.decoder with windows := s.decoder.windows.put ⟨1023, 0⟩ n } }
                    i 1))
            ∧ (s.mailbox.argB.toNat ≤ s.mailbox.argC.toNat →
                ((pagesOf s.decoder.memSize ≤ s.mailbox.argC.toNat
                    ∨ (match n with | .inbox => 4 | .bays => 3 | .ring => 1)
                        < s.mailbox.argC.toNat - s.mailbox.argB.toNat + 1
                    ∨ (s.mailbox.argB.toNat ≤ pagesOf s.decoder.memSize - 1
                        ∧ pagesOf s.decoder.memSize - 1 ≤ s.mailbox.argC.toNat)
                    ∨ (∃ k, k ≠ n ∧ ∃ p, s.mailbox.argB.toNat ≤ p ∧ p ≤ s.mailbox.argC.toNat
                        ∧ (s.decoder.windows.get k).HasPage p)) →
                    exec (.setWindow i) s = .next (commandStep (commandFinished s 1 .badArg) i 1))
                  ∧ (s.mailbox.argC.toNat < pagesOf s.decoder.memSize →
                      s.mailbox.argC.toNat - s.mailbox.argB.toNat + 1
                        ≤ (match n with | .inbox => 4 | .bays => 3 | .ring => 1) →
                      ¬ (s.mailbox.argB.toNat ≤ pagesOf s.decoder.memSize - 1
                        ∧ pagesOf s.decoder.memSize - 1 ≤ s.mailbox.argC.toNat) →
                      (∀ k, k ≠ n → ∀ p, s.mailbox.argB.toNat ≤ p → p ≤ s.mailbox.argC.toNat →
                        ¬ (s.decoder.windows.get k).HasPage p) →
                      exec (.setWindow i) s =
                        .next
                          (commandStep
                            { commandFinished s 1 .ok with
                              decoder :=
                                { s.decoder with
                                  windows :=
                                    s.decoder.windows.put ⟨s.mailbox.argB.toNat, s.mailbox.argC.toNat⟩ n } }
                            i 1)))

/-- O17. SET_TIMING sets the one parameter that argument A names to argument B, in any mode; an A not in the table or a B out
of the parameter's range is BAD_ARG and changes nothing (R192). SET_TIME sets yard time and leaves the second base and every
timer and stamp (R193); CLEAR_COUNTERS sets the twelve counters to 0 and the counter changed mark (R194, R195). Both complete
OK in any mode. -/
def Obligations.TimingClockAndCountersAreSet : Prop :=
  (∀ (i : Initiator) (s : State), Open s i →
      (paramRange s.mailbox.argA.toNat = none →
          exec (.setTiming i) s = .next (commandStep (commandFinished s 2 .badArg) i 2))
        ∧ ∀ lo hi, paramRange s.mailbox.argA.toNat = some (lo, hi) →
            ((s.mailbox.argB.toNat < lo ∨ hi < s.mailbox.argB.toNat) →
                exec (.setTiming i) s = .next (commandStep (commandFinished s 2 .badArg) i 2))
              ∧ (lo ≤ s.mailbox.argB.toNat → s.mailbox.argB.toNat ≤ hi →
                  ∃ p, paramOf p s.mailbox.argA.toNat = some s.mailbox.argB.toNat
                    ∧ (∀ k, k ≠ s.mailbox.argA.toNat → paramOf p k = paramOf s.params k)
                    ∧ exec (.setTiming i) s =
                      .next (commandStep { commandFinished s 2 .ok with params := p } i 2)))
    ∧ (∀ (i : Initiator) (s : State), Open s i →
      exec (.setTime i) s =
          .next (commandStep { commandFinished s 5 .ok with clock := ⟨s.mailbox.argA, s.clock.base⟩ } i 5)
        ∧ exec (.clearCounters i) s =
          .next
            (commandStep
              { commandFinished s 14 .ok with
                counters := ⟨0, 0, 0, 0, 0, 0, 0, 0, 0, 0, 0, 0⟩
                status := { (commandFinished s 14 .ok).status with counterChanged := true } }
              i 14))

/-- O18. RUN and HALT follow the table of R14: a change of mode asks for a status rewrite, and a HALT in RUN waits, with the
mode already HALTED, while any bay update is in flight (log 24 for one that finds none). A HALT that waits completes OK at the
first moment no bay update is in flight, and asks for a rewrite: HALT_COMPLETE is that completion, every other event, and
the next REFCLK period, finds it made (log 31), and at any other moment HALT_COMPLETE does not occur (log 5). -/
def Obligations.RunAndHaltFollowTheirTable : Prop :=
  (∀ (i : Initiator) (s : State), Open s i →
      (s.decoder.mode = .pass → (∀ n, (s.decoder.windows.get n).base ≤ (s.decoder.windows.get n).limit) →
          exec (.run i) s =
            .next
              (commandStep
                { commandFinished s 3 .ok with
                  decoder := { s.decoder with mode := .run }
                  status := { (commandFinished s 3 .ok).status with wanted := true } }
                i 3))
        ∧ (s.decoder.mode = .pass → (∃ n, (s.decoder.windows.get n).limit < (s.decoder.windows.get n).base) →
            exec (.run i) s = .next (commandStep (commandFinished s 3 .badState) i 3))
        ∧ (s.decoder.mode = .run → exec (.run i) s = .next (commandStep (commandFinished s 3 .ok) i 3))
        ∧ (s.decoder.mode = .halted →
            exec (.run i) s =
              .next
                (commandStep
                  { commandFinished s 3 .ok with
                    decoder := { s.decoder with mode := .run }
                    status := { (commandFinished s 3 .ok).status with wanted := true } }
                  i 3))
        ∧ (s.decoder.mode = .pass → exec (.halt i) s = .next (commandStep (commandFinished s 4 .badState) i 4))
        ∧ (s.decoder.mode = .run → (∀ b, (s.bay b).inFlight = false) →
            exec (.halt i) s =
              .next
                (commandStep
                  { commandFinished s 4 .ok with
                    decoder := { s.decoder with mode := .halted }
                    status := { (commandFinished s 4 .ok).status with wanted := true } }
                  i 4))
        ∧ (s.decoder.mode = .run → (∃ b, (s.bay b).inFlight = true) →
            exec (.halt i) s =
              .next
                (commandStep
                  { commandWaits s 4 .halting with
                    decoder := { s.decoder with mode := .halted }
                    status := { s.status with wanted := true } }
                  i 4))
        ∧ (s.decoder.mode = .halted → exec (.halt i) s = .next (commandStep (commandFinished s 4 .ok) i 4)))
    ∧ (∀ (cmd : Command) (s s1 : State), s.pins.resetN = true → s.mailbox.progress = .halting →
      s.mailbox.current = some cmd → (∀ b, (s.bay b).inFlight = false) →
      s1 =
        settle
          { s with
            mailbox := resultIn s.mailbox cmd.code .ok
            status := { s.status with wanted := true, resultPending := true } } →
      exec .haltComplete s = .next s1
        ∧ (∀ c : Instr, c.wellFormed = true → c ≠ .resetNFall → (∀ m, c ≠ .resetNRelease m) → exec c s = exec c s1)
        ∧ (s.pending = [] → step s = step s1))
    ∧ (∀ s : State, (s.mailbox.progress ≠ .halting ∨ ∃ b, (s.bay b).inFlight = true) →
      exec .haltComplete s = .next s)

/-- O19. INJECT follows the table of R42, the first case that applies. SET_FEEDER: an A above 7 or a B above 8 is BAD_ARG and
changes nothing; otherwise feeder A's capacity becomes B, OK, and a capacity above the old one acts on the feeder in the same
event (R112, R121). -/
def Obligations.InjectAndSetFeederFollowTheirTables : Prop :=
  (∀ (i : Initiator) (s : State), Open s i →
        (s.decoder.mode = .pass → exec (.inject i) s = .next (commandStep (commandFinished s 13 .badState) i 13))
          ∧ (s.decoder.mode ≠ .pass → s.decoder.windows.servesRadio s.mailbox.argA.toNat = false →
              exec (.inject i) s = .next (commandStep (commandFinished s 13 .badArg) i 13))
          ∧ (s.decoder.mode ≠ .pass → s.decoder.windows.servesRadio s.mailbox.argA.toNat = true →
              (s.mailbox.argB = 0 →
                  exec (.inject i) s =
                    .next
                      (commandStep { commandFinished s 13 .ok with link := { s.link with injection := none } } i 13))
                ∧ (∀ k, (s.mailbox.argB = 1 ∧ k = .badCheck ∨ s.mailbox.argB = 2 ∧ k = .skip
                      ∨ s.mailbox.argB = 3 ∧ k = InjectKind.drop) →
                    exec (.inject i) s =
                      .next
                        (commandStep
                          { commandFinished s 13 .ok with
                            link := { s.link with injection := some (s.mailbox.argA.setWidth 10, k) } }
                          i 13))
                ∧ (3 < s.mailbox.argB.toNat →
                    exec (.inject i) s = .next (commandStep (commandFinished s 13 .badArg) i 13))))
    ∧ (∀ (i : Initiator) (s : State), Open s i →
        ((7 < s.mailbox.argA.toNat ∨ 8 < s.mailbox.argB.toNat) →
            exec (.setFeeder i) s = .next (commandStep (commandFinished s 11 .badArg) i 11))
          ∧ ∀ f : FeederNo, s.mailbox.argA.toNat = f.val → s.mailbox.argB.toNat ≤ 8 →
              (s.mailbox.argB.toNat ≤ (s.feeder f).capacity →
                  exec (.setFeeder i) s =
                    .next
                      (commandStep
                        { commandFinished s 11 .ok with
                          feeders := s.feeders.set f { s.feeder f with capacity := s.mailbox.argB.toNat } }
                        i 11))
                ∧ ((s.feeder f).capacity < s.mailbox.argB.toNat →
                  exec (.setFeeder i) s =
                    .next
                      (commandStep
                        (act f
                          { commandFinished s 11 .ok with
                            feeders := s.feeders.set f { s.feeder f with capacity := s.mailbox.argB.toNat } })
                        i 11)))

/-- O20. The sources' own rules. A condition raised on an alert or feeder source replaces the one pending there, whole, and
touches no other source (R157). An order that becomes pending puts its bay at the tail of the order list, and a bay already
there keeps its place with the new time; a withdrawn or claimed order takes its bay out, the others keeping their order
(R158). UNMAP_TAG's withdrawal empties the bay's four alert sources and takes it out of the order list (R164). -/
def Obligations.SourcesKeepTheirRules : Prop :=
  (∀ (q : Sources) (b : BayNo) (k : AlertKind) (c : Condition) (i : Fin 640),
      i.val = 4 * b.val + (match k with | .defrost => 0 | .fuel => 1 | .door => 2 | .link => 3) →
      (q.raiseAlert b k c).alerts[i] = some c ∧ (∀ j : Fin 640, j ≠ i → (q.raiseAlert b k c).alerts[j] = q.alerts[j])
        ∧ (q.raiseAlert b k c).feeders = q.feeders ∧ (q.raiseAlert b k c).tags = q.tags
        ∧ (q.raiseAlert b k c).orders = q.orders)
    ∧ (∀ (q : Sources) (f : FeederNo) (c : Condition),
      (q.raiseFeeder f c).feeders[f] = some c
        ∧ (∀ g : FeederNo, g ≠ f → (q.raiseFeeder f c).feeders[g] = q.feeders[g])
        ∧ (q.raiseFeeder f c).alerts = q.alerts ∧ (q.raiseFeeder f c).tags = q.tags
        ∧ (q.raiseFeeder f c).orders = q.orders)
    ∧ (∀ (q : Sources) (b : BayNo) (now : Time),
      ((∀ x ∈ q.orders, x.1 ≠ b) →
          q.orderPends b now = { q with orders := q.orders ++ [(b, now)] } ∧ q.orderLeaves b = q)
        ∧ ∀ before t after, q.orders = before ++ (b, t) :: after → (∀ x ∈ before ++ after, x.1 ≠ b) →
            q.orderPends b now = { q with orders := before ++ (b, now) :: after }
              ∧ q.orderLeaves b = { q with orders := before ++ after })
    ∧ ∀ (q : Sources) (b : BayNo),
      (∀ i : Fin 640,
          (i.val / 4 = b.val → (q.withdrawBay b).alerts[i] = none)
            ∧ (i.val / 4 ≠ b.val → (q.withdrawBay b).alerts[i] = q.alerts[i]))
        ∧ (q.withdrawBay b).feeders = q.feeders ∧ (q.withdrawBay b).tags = q.tags
        ∧ (q.withdrawBay b).orders = (q.orderLeaves b).orders

/-! ## Bay commands -/

/-- O21. Bay commands and MAP_TAG and UNMAP_TAG refused at once: BAD_STATE in PASS, BAD_ARG for a bay or radio that is not
served or another argument out of its range, NOT_FOUND for an UNMAP_TAG of a radio not in the Tag Map (R53, R55, R69);
and a code not in the table of R191 is BAD_ARG in every mode, recorded by its low 8 bits (R189). -/
def Obligations.CommandsRefusedAtOnce : Prop :=
  ∀ (i : Initiator) (s : State), Open s i →
    (∀ code, code ≠ 0 → 14 < code.toNat →
        exec (.unknownCommand i code) s = .next (commandStep (commandFinished s code .badArg) i code))
      ∧ (s.decoder.mode = .pass →
          exec (.mapTag i) s = .next (commandStep (commandFinished s 6 .badState) i 6)
            ∧ exec (.unmapTag i) s = .next (commandStep (commandFinished s 7 .badState) i 7)
            ∧ exec (.setLoading i) s = .next (commandStep (commandFinished s 8 .badState) i 8)
            ∧ exec (.forceDefrost i) s = .next (commandStep (commandFinished s 9 .badState) i 9)
            ∧ exec (.cancelDefrost i) s = .next (commandStep (commandFinished s 10 .badState) i 10)
            ∧ exec (.assignFeeder i) s = .next (commandStep (commandFinished s 12 .badState) i 12))
      ∧ (s.decoder.mode ≠ .pass →
          ((s.decoder.windows.servesRadio s.mailbox.argA.toNat = false
              ∨ s.decoder.windows.servesBay s.mailbox.argB.toNat = false ∨ 1 < s.mailbox.argC.toNat) →
              exec (.mapTag i) s = .next (commandStep (commandFinished s 6 .badArg) i 6))
            ∧ ((∀ t ∈ s.link.tagMap, t.radio.toNat ≠ s.mailbox.argA.toNat) →
              exec (.unmapTag i) s = .next (commandStep (commandFinished s 7 .notFound) i 7))
            ∧ ((s.decoder.windows.servesBay s.mailbox.argA.toNat = false ∨ 1 < s.mailbox.argB.toNat) →
              exec (.setLoading i) s = .next (commandStep (commandFinished s 8 .badArg) i 8))
            ∧ (s.decoder.windows.servesBay s.mailbox.argA.toNat = false →
              exec (.forceDefrost i) s = .next (commandStep (commandFinished s 9 .badArg) i 9))
            ∧ (s.decoder.windows.servesBay s.mailbox.argA.toNat = false →
              exec (.cancelDefrost i) s = .next (commandStep (commandFinished s 10 .badArg) i 10))
            ∧ ((s.decoder.windows.servesBay s.mailbox.argA.toNat = false ∨ 7 < s.mailbox.argB.toNat) →
              exec (.assignFeeder i) s = .next (commandStep (commandFinished s 12 .badArg) i 12)))

/-- O22. A bay command that is not refused at once waits while its bay is locked, and joins the tail of the bay's waiting events
while an update is in flight, keeping the mailbox BUSY (R67, R69, R70). At its turn at a free bay it is refused with BAD_STATE
and changes nothing else where the bay's state does not take it: VACANT (R69), the defrost states of R103, R104 and R122, and
MAP_TAG where its radio is mapped or the bay OCCUPIED (R53). -/
def Obligations.BayCommandsWaitOrAreRefused : Prop :=
  (∀ (c : Instr) (i : Initiator) (code : Word) (b : BayNo) (s : State), Open s i → s.decoder.mode ≠ .pass →
      BayCommand s i c code b →
      (s.locked b = true → exec c s = .next (commandStep (commandWaits s code (.awaitsUnlock b)) i code))
        ∧ (s.locked b = false → (s.bay b).inFlight = true →
            exec c s =
              .next
                (commandStep
                  { commandWaits s code (.awaitsTurn b) with
                    bays := s.bays.set b { s.bay b with waiting := (s.bay b).waiting ++ [.command] } }
                  i code)))
    ∧ (∀ (c : Instr) (i : Initiator) (code : Word) (b : BayNo) (s : State), Open s i → s.decoder.mode ≠ .pass →
      BayCommand s i c code b → FreeBay s b →
      ((c = .mapTag i ∧ ((s.bay b).occupied = true ∨ ∃ t ∈ s.link.tagMap, t.radio = s.mailbox.argA.setWidth 10))
        ∨ (c ≠ .mapTag i ∧ (s.bay b).occupied = false)
        ∨ ((c = .forceDefrost i ∨ c = .assignFeeder i) ∧ (s.bay b).defrost.state ≠ .idle
            ∧ (s.bay b).defrost.state ≠ .draining)
        ∨ (c = .cancelDefrost i
            ∧ ((s.bay b).defrost.state = .idle ∨ (s.bay b).defrost.state = .stopping
              ∨ (s.bay b).defrost.state = .draining))) →
      exec c s = .next (commandStep (commandFinished s code .badState) i code))

/-- O23. A taken MAP_TAG creates the Tag Map entry, empties the radio's Unknown Tag List place and begins the update of the
bay whose entry is as the table of R76 gives, the whole record being written (R54, R76, R165). A taken UNMAP_TAG removes the
Tag Map entry, withdraws the bay's pending sources, gives up its grant, queue place or self-started count, and begins the
update whose entry is as the table of R77 gives (R55, R79, R164). A field that the two tables do not list, silent-since among
them, is kept (log 15). -/
def Obligations.MapTagAndUnmapTagBeginTheirUpdates : Prop :=
  (∀ (i : Initiator) (b : BayNo) (a : RadioAddr) (k : UnitKind) (s : State), Open s i → s.decoder.mode ≠ .pass →
        BayCommand s i (.mapTag i) 6 b → FreeBay s b → a = s.mailbox.argA.setWidth 10 →
        k = (if s.mailbox.argC = 0 then .diesel else .electric) → (s.bay b).occupied = false →
        (∀ t ∈ s.link.tagMap, t.radio ≠ a) →
        ∃ (unknown : Vector (Option UnknownEntry) 16) (tags : Vector Bool 16),
          (s.link.listedAt a = none → unknown = s.link.unknown ∧ tags = s.sources.tags)
            ∧ (∀ p, s.link.listedAt a = some p → unknown = s.link.unknown.set p none ∧ tags = s.sources.tags.set p false)
            ∧ exec (.mapTag i) s =
              .next
                (commandStep
                  { updateBegun (commandWaits s 6 (.updating b)) b
                      { s.bay b with
                        occupied := true, radio := some a, kind := k, occStart := s.clock.time, link := some .hunt,
                        loading := false, silent := false, readingHeld := false, reading := .zero,
                        defrost :=
                          ⟨.idle, .queued, 0, 0, .stopped, none, (s.bay b).defrost.orderNumber, none, none, none⟩,
                        fuel := ⟨.normal, none⟩, door := ⟨.closed, 0, 0, .stopped⟩,
                        silence := .running s.params.silenceLimit s.params.silenceLimit }
                      true with
                    link := { s.link with tagMap := s.link.tagMap ++ [⟨a, b, .hunt, 0, 0, 0⟩], unknown := unknown }
                    sources := { s.sources with tags := tags } }
                  i 6))
    ∧ (∀ (i : Initiator) (b : BayNo) (s : State), Open s i → s.decoder.mode ≠ .pass → BayCommand s i (.unmapTag i) 7 b →
        FreeBay s b → (s.bay b).occupied = true →
        ∃ reports : List Report,
          ((s.bay b).defrost.state.granted = true → reports = releaseReport (s.bay b).defrost)
            ∧ ((s.bay b).defrost.state = .due →
                reports = if (s.bay b).defrost.reason = .queued then [.leaveQueue (s.bay b).feeder] else [])
            ∧ ((s.bay b).defrost.state = .self → reports = [.selfLeave (s.bay b).feeder])
            ∧ (((s.bay b).defrost.state = .idle ∨ (s.bay b).defrost.state = .draining) → reports = [])
            ∧ exec (.unmapTag i) s =
              .next
                (commandStep
                  (feederReports b reports
                    { updateBegun (commandWaits s 7 (.updating b)) b
                        { s.bay b with
                          occupied := false, radio := none, link := none, loading := false, silent := false,
                          defrost :=
                            ⟨.idle, .queued, 0, 0, .stopped, (s.bay b).defrost.lastEnd, (s.bay b).defrost.orderNumber,
                              (s.bay b).defrost.lastKind, none, none⟩,
                          fuel := { (s.bay b).fuel with state := .normal },
                          door := { (s.bay b).door with state := .closed, timer := .stopped }, silence := .stopped }
                        true with
                      link :=
                        { s.link with
                          tagMap := s.link.tagMap.filter fun t => t.radio != s.mailbox.argA.setWidth 10 }
                      sources := s.sources.withdrawBay b })
                  i 7))

/-- O24. Starting or stopping a timer makes every expiry of it that waits or is held stale (R57, R68; log 23). The Check
Engine's turn at a free, unlocked bay takes its waiting events oldest first until one begins an update (R67): a stale expiry
is dropped, and any other acts on the entry as it stands; a frame of the trailer in the bay is evaluated and another is
discarded (R72); a revocation update writes the record as the entry stands (R115). The waiting command is judged on the bay's
state as it then stands (R53-R55, R69, R103, R104, R122, R146): refused, it completes with BAD_STATE and the next event has
its turn; taken, it begins its update and stays BUSY until that update ends, the fields R76 and R77 do not list being kept
(log 15) and a DUE reason put back to QUEUED (log 16). An evaluation restarts the silence timer, the defrost timer when the
defrost state changes and the door timer when the door opens or closes from OPEN; an expiry's own change restarts or stops its
timer; UNMAP_TAG stops all three (R74, R77, R81, R140, R142). -/
def Obligations.WaitingEventsAreJudgedAtTheirTurn : Prop :=
  (∀ (e : BayEntry) (t : BayTimer) (x : Timer),
      let mark : BayEvent → BayEvent
        | .expiry u stale => .expiry u (stale || decide (u = t))
        | ev => ev
      e.markStale t = { e with waiting := e.waiting.map mark, held := e.held.map mark }
        ∧ (e.setTimer t x).waiting = e.waiting.map mark ∧ (e.setTimer t x).held = e.held.map mark
        ∧ (e.setTimer t x).timer t = x ∧ ∀ u, u ≠ t → (e.setTimer t x).timer u = e.timer u)
    ∧ (∀ (b : BayNo) (s : State),
      (((s.bay b).inFlight = true ∨ s.locked b = true ∨ (s.bay b).waiting = []) → turn b s = s)
        ∧ ∀ ev more, (s.bay b).inFlight = false → s.locked b = false → (s.bay b).waiting = ev :: more →
            let next : State := { s with bays := s.bays.set b { s.bay b with waiting := more } }
            let begun (n : State) (w : Work) : State :=
              feederReports b w.reports
                { updateBegun n b w.bay false with sources := (raiseAll b w.conds (tellOrders b w.orders n)).sources }
            let fits (h : HandedFrame) : Prop := (s.bay b).occupied = true ∧ (s.bay b).radio = some h.radio
            (∀ t, ev = .expiry t true → turn b s = turn b next)
              ∧ (∀ t, ev = .expiry t false →
                  turn b s = begun next ((Work.start (copied next b)).expires (next.ctx b) t))
              ∧ (∀ h, ev = .deferredFrame h →
                  (fits h → turn b s = begun next ((Work.start (copied next b)).evaluate (next.ctx b) h))
                    ∧ (¬ fits h → turn b s = turn b next))
              ∧ (∀ h n, ev = .handOffFrame → s.link.handOff = some h →
                  n = { next with link := { s.link with handOff := none } } →
                  (fits h → turn b s = begun n ((Work.start (copied next b)).evaluate (next.ctx b) h))
                    ∧ (¬ fits h → turn b s = turn b n))
              ∧ (ev = .revocation → turn b s = updateBegun next b (copied next b) false))
    ∧ (∀ (b : BayNo) (cmd : Command) (more : List BayEvent) (s : State), (s.bay b).inFlight = false →
      s.locked b = false → (s.bay b).waiting = .command :: more → s.mailbox.current = some cmd →
      let next : State := { s with bays := s.bays.set b { s.bay b with waiting := more } }
      let e : BayEntry := copied next b
      let stale : BayEntry := e.markStale .defrost
      let allStale : BayEntry := ((e.markStale .silence).markStale .defrost).markStale .door
      let d := e.defrost
      let radio : RadioAddr := cmd.a.setWidth 10
      let limit := (if cmd.b = 1 then e.settings.loadingDoorLimit else e.settings.doorLimit).toNat
      let elapsed := (s.clock.time - e.door.since).toNat
      let resting := d.state = .idle ∨ d.state = .draining
      let begun (e : BayEntry) (full : Bool) : State :=
        updateBegun { next with mailbox := { s.mailbox with progress := .updating b } } b e full
      let cancelled (d' : DefrostRecord) : State :=
        begun { stale with defrost := { d' with lastEnd := some s.clock.time } } false
      (((cmd.code = 6 ∧ (e.occupied = true ∨ ∃ t ∈ s.link.tagMap, t.radio = radio))
          ∨ ((cmd.code = 7 ∨ cmd.code = 8 ∨ cmd.code = 9 ∨ cmd.code = 10 ∨ cmd.code = 12) ∧ e.occupied = false)
          ∨ ((cmd.code = 9 ∨ cmd.code = 12) ∧ ¬ resting)
          ∨ (cmd.code = 10 ∧ (d.state = .idle ∨ d.state = .stopping ∨ d.state = .draining))) →
          turn b s =
            turn b
              { next with
                mailbox := resultIn s.mailbox cmd.code .badState
                status := { s.status with resultPending := true } })
        ∧ (∀ unknown tags, cmd.code = 6 → e.occupied = false → (∀ t ∈ s.link.tagMap, t.radio ≠ radio) →
            (∀ p, s.link.listedAt radio = some p →
              unknown = s.link.unknown.set p none ∧ tags = s.sources.tags.set p false) →
            (s.link.listedAt radio = none → unknown = s.link.unknown ∧ tags = s.sources.tags) →
            turn b s =
              { begun
                  { allStale with
                    occupied := true, radio := some radio, kind := if cmd.c = 0 then .diesel else .electric,
                    occStart := s.clock.time, link := some .hunt, loading := false, silent := false,
                    readingHeld := false, reading := .zero,
                    defrost := ⟨.idle, .queued, 0, 0, .stopped, none, d.orderNumber, none, none, none⟩,
                    fuel := ⟨.normal, none⟩, door := ⟨.closed, 0, 0, .stopped⟩,
                    silence := .running s.params.silenceLimit s.params.silenceLimit }
                  true with
                link := { s.link with tagMap := s.link.tagMap ++ [⟨radio, b, .hunt, 0, 0, 0⟩], unknown := unknown }
                sources := { s.sources with tags := tags } })
        ∧ (cmd.code = 7 → e.occupied = true →
            turn b s =
              feederReports b
                (match d.state with
                  | .ordered | .running | .stopping => releaseReport d
                  | .due => if d.reason = .queued then [.leaveQueue e.feeder] else []
                  | .self => [.selfLeave e.feeder]
                  | .idle | .draining => [])
                { begun
                    { allStale with
                      occupied := false, radio := none, link := none, loading := false, silent := false,
                      defrost := ⟨.idle, .queued, 0, 0, .stopped, d.lastEnd, d.orderNumber, d.lastKind, none, none⟩,
                      fuel := { e.fuel with state := .normal },
                      door := { e.door with state := .closed, timer := .stopped }, silence := .stopped }
                    true with
                  link := { s.link with tagMap := s.link.tagMap.filter fun t => t.radio != radio }
                  sources := s.sources.withdrawBay b })
        ∧ (∀ on, cmd.code = 8 → e.occupied = true → on = decide (cmd.b = 1) →
            ((e.loading = on ∨ e.door.state = .closed
                ∨ (e.door.state = .openLong ∧ (on = false ∨ limit ≤ elapsed))) →
                turn b s = begun { e with loading := on } false)
              ∧ (e.loading ≠ on → e.door.state = .isOpen → limit ≤ elapsed →
                  turn b s =
                    { begun
                        { e.markStale .door with
                          loading := on, door := { e.door with state := .openLong, timer := .stopped } }
                        false with
                      sources :=
                        s.sources.raiseAlert b .door
                          ⟨.openLong, s.clock.time, .radio (e.radio.getD 0) e.reading.seq,
                            s.clock.time - e.door.since⟩ })
              ∧ (e.loading ≠ on → elapsed < limit →
                  (e.door.state = .isOpen ∨ (e.door.state = .openLong ∧ on = true)) →
                  turn b s =
                    begun
                      { e.markStale .door with
                        loading := on
                        door :=
                          { e.door with
                            state := .isOpen, timer := .running (limit - elapsed) (limit - elapsed) } }
                      false))
        ∧ (∀ e' reports q, cmd.code = 9 → e.occupied = true → resting →
            Routed s.params.startWindow s.clock.time b
              { stale with defrost := { d with state := .due, iceCount := 0, timer := .stopped } }
              s.sources e' reports q →
            turn b s = feederReports b reports { begun e' false with sources := q })
        ∧ (cmd.code = 10 → e.occupied = true →
            (d.state = .due →
                turn b s =
                  feederReports b (if d.reason = .queued then [.leaveQueue e.feeder] else [])
                    (cancelled
                      { d with
                        state := .idle, reason := .queued, attempts := 0, iceCount := 0, grantFeeder := none,
                        timer := .stopped }))
              ∧ (∀ f, d.state = .ordered → d.pending = some ⟨.start, f⟩ →
                  turn b s =
                    feederReports b (releaseReport d)
                      { cancelled
                          { d with
                            state := .idle, attempts := 0, iceCount := 0, grantFeeder := none, timer := .stopped,
                            pending := none } with
                        sources := { s.sources with orders := s.sources.orders.filter fun x => x.1 != b } })
              ∧ (((d.state = .ordered ∧ ∀ f, d.pending ≠ some ⟨.start, f⟩) ∨ d.state = .running) →
                  turn b s =
                    { cancelled
                        { d with
                          state := .stopping, timer := .running s.params.stopWindow s.params.stopWindow,
                          orderNumber := nextOrderNumber d.orderNumber, lastKind := some .stop,
                          pending := some ⟨.stop, d.grantFeeder⟩ } with
                      sources := s.sources.orderPends b s.clock.time })
              ∧ (d.state = .self →
                  turn b s =
                    { begun
                        { e with
                          defrost :=
                            { d with
                              lastEnd := some s.clock.time, orderNumber := nextOrderNumber d.orderNumber,
                              lastKind := some .stop, pending := some ⟨.stop, none⟩ } }
                        false with
                      sources := s.sources.orderPends b s.clock.time }))
        ∧ (∀ f : FeederNo, cmd.code = 12 → e.occupied = true → resting → cmd.b.toNat = f.val →
            turn b s = begun { e with feeder := f } false))
    ∧ (∀ (c : Ctx) (h : HandedFrame) (w w' : Work), w' = w.evaluate c h →
      let restarted : BayTimer → Bool
        | .silence => true
        | .defrost => w'.bay.defrost.state != w.bay.defrost.state
        | .door => w'.bay.door.state != w.bay.door.state && w.bay.door.state != .openLong
      let mark : BayEvent → BayEvent
        | .expiry u stale => .expiry u (stale || restarted u)
        | ev => ev
      w'.bay.waiting = w.bay.waiting.map mark ∧ w'.bay.held = w.bay.held.map mark)
    ∧ (∀ (c : Ctx) (t : BayTimer) (w : Work),
      (t = .defrost → w.bay.defrost.state ≠ .idle ∧ w.bay.defrost.state ≠ .due ∧ w.bay.defrost.state ≠ .self) →
      (w.expires c t).bay.waiting = (w.bay.markStale t).waiting ∧ (w.expires c t).bay.held = (w.bay.markStale t).held)
    ∧ ∀ w : Work,
      let allStale : BayEvent → BayEvent
        | .expiry u _ => .expiry u true
        | ev => ev
      w.unmapTag.bay.waiting = w.bay.waiting.map allStale ∧ w.unmapTag.bay.held = w.bay.held.map allStale

/-- O25. A taken SET_LOADING sets the flag and, when it changes, judges the door against the new applicable limit
(R138, R147-R149). -/
def Obligations.SetLoadingBeginsItsUpdate : Prop :=
  ∀ (i : Initiator) (b : BayNo) (on : Bool) (limit elapsed : Nat) (s : State), Open s i → s.decoder.mode ≠ .pass →
    BayCommand s i (.setLoading i) 8 b → FreeBay s b → (s.bay b).occupied = true →
    s.mailbox.argB = (if on then 1 else 0) →
    limit = (if on then (s.bay b).settings.loadingDoorLimit else (s.bay b).settings.doorLimit).toNat →
    elapsed = (s.clock.time - (s.bay b).door.since).toNat →
    let e : BayEntry := { copied s b with loading := on }
    let u (e : BayEntry) : State := updateBegun (commandWaits s 8 (.updating b)) b e false
    (((s.bay b).loading = on ∨ (s.bay b).door.state = .closed
        ∨ ((s.bay b).door.state = .openLong ∧ (on = false ∨ limit ≤ elapsed))) →
        exec (.setLoading i) s = .next (commandStep (u e) i 8))
      ∧ ((s.bay b).loading ≠ on → (s.bay b).door.state = .isOpen → limit ≤ elapsed →
          exec (.setLoading i) s =
            .next
              (commandStep
                { u { e with door := { e.door with state := .openLong, timer := .stopped } } with
                  sources :=
                    s.sources.raiseAlert b .door
                      ⟨.openLong, s.clock.time, .radio (e.radio.getD 0) e.reading.seq,
                        s.clock.time - e.door.since⟩ }
                i 8))
      ∧ ((s.bay b).loading ≠ on → elapsed < limit →
          ((s.bay b).door.state = .isOpen ∨ ((s.bay b).door.state = .openLong ∧ on = true)) →
          exec (.setLoading i) s =
            .next
              (commandStep
                (u
                  { e with
                    door :=
                      { e.door with
                        state := .isOpen, timer := .running (limit - elapsed) (limit - elapsed) } })
                i 8))

/-- O26. A taken FORCE_DEFROST raises demand on a bay in IDLE or DRAINING: the ice count is cleared, the drain timer stops and the
power is routed (R89, R103). A taken ASSIGN_FEEDER sets the assigned feeder in IDLE and DRAINING and tells the Feeder Arbiter
nothing (R122). -/
def Obligations.DefrostIsForcedAndFeedersAssigned : Prop :=
  (∀ (i : Initiator) (b : BayNo) (e : BayEntry) (reports : List Report) (q : Sources) (s : State), Open s i →
      s.decoder.mode ≠ .pass → BayCommand s i (.forceDefrost i) 9 b → FreeBay s b → (s.bay b).occupied = true →
      ((s.bay b).defrost.state = .idle ∨ (s.bay b).defrost.state = .draining) →
      Routed s.params.startWindow s.clock.time b
        { copied s b with defrost := { (s.bay b).defrost with state := .due, iceCount := 0, timer := .stopped } }
        s.sources e reports q →
      exec (.forceDefrost i) s =
        .next
          (commandStep
            (feederReports b reports
              { updateBegun (commandWaits s 9 (.updating b)) b e false with sources := q })
            i 9))
    ∧ (∀ (i : Initiator) (b : BayNo) (f : FeederNo) (s : State), Open s i → s.decoder.mode ≠ .pass →
      BayCommand s i (.assignFeeder i) 12 b → FreeBay s b → (s.bay b).occupied = true →
      ((s.bay b).defrost.state = .idle ∨ (s.bay b).defrost.state = .draining) → s.mailbox.argB.toNat = f.val →
      exec (.assignFeeder i) s =
        .next (commandStep (updateBegun (commandWaits s 12 (.updating b)) b { copied s b with feeder := f } false) i 12))

/-- O27. A taken CANCEL_DEFROST follows the table of R104; each sets the last defrost end to now. Out of DUE the reason is put
back to QUEUED (the model's choice: log 16). -/
def Obligations.CancelDefrostFollowsItsTable : Prop :=
  ∀ (i : Initiator) (b : BayNo) (s : State), Open s i → s.decoder.mode ≠ .pass →
    BayCommand s i (.cancelDefrost i) 10 b → FreeBay s b → (s.bay b).occupied = true →
    let d := (s.bay b).defrost
    let ended (d' : DefrostRecord) : BayEntry := { copied s b with defrost := { d' with lastEnd := some s.clock.time } }
    let u (e : BayEntry) (q : Sources) : State :=
      { updateBegun (commandWaits s 10 (.updating b)) b e false with sources := q }
    let stopping : DefrostRecord :=
      { d with
        state := .stopping, timer := .running s.params.stopWindow s.params.stopWindow,
        orderNumber := nextOrderNumber d.orderNumber, lastKind := some .stop, pending := some ⟨.stop, d.grantFeeder⟩ }
    (d.state = .due →
        exec (.cancelDefrost i) s =
          .next
            (commandStep
              (feederReports b (if d.reason = .queued then [.leaveQueue (s.bay b).feeder] else [])
                (u
                  (ended
                    { d with
                      state := .idle, reason := .queued, attempts := 0, iceCount := 0, grantFeeder := none,
                      timer := .stopped })
                  s.sources))
              i 10))
      ∧ (∀ f, d.state = .ordered → d.pending = some ⟨.start, f⟩ →
          exec (.cancelDefrost i) s =
            .next
              (commandStep
                (feederReports b (releaseReport d)
                  (u
                    (ended
                      { d with
                        state := .idle, attempts := 0, iceCount := 0, grantFeeder := none, timer := .stopped,
                        pending := none })
                    { s.sources with orders := s.sources.orders.filter fun x => x.1 != b }))
                i 10))
      ∧ (((d.state = .ordered ∧ ∀ f, d.pending ≠ some ⟨.start, f⟩) ∨ d.state = .running) →
          exec (.cancelDefrost i) s =
            .next (commandStep (u (ended stopping) (s.sources.orderPends b s.clock.time)) i 10))
      ∧ (d.state = .self →
          exec (.cancelDefrost i) s =
            .next
              (commandStep
                (u
                  (ended
                    { d with
                      orderNumber := nextOrderNumber d.orderNumber, lastKind := some .stop,
                      pending := some ⟨.stop, none⟩ })
                  (s.sources.orderPends b s.clock.time))
                i 10))

/-! ## The memory port -/

/-- O28. The port is granted to the first waiting requester found by searching from the requester after the one last granted,
in the order pass-through path, record writer, notice writer, status writer, delayed-read fetcher; a busy port or no waiting
requester makes no grant, and a burst completes only while the port is granted to its requester (R16; log 5). -/
def Obligations.PortGrantIsRoundRobin : Prop :=
  (∀ s : State, Live s →
      let order : List Requester :=
        match s.arbiter.start with
        | .passThrough => [.passThrough, .record, .notice, .status, .fetch]
        | .record => [.record, .notice, .status, .fetch, .passThrough]
        | .notice => [.notice, .status, .fetch, .passThrough, .record]
        | .status => [.status, .fetch, .passThrough, .record, .notice]
        | .fetch => [.fetch, .passThrough, .record, .notice, .status]
      (∀ q before after, s.arbiter.granted = none → order = before ++ q :: after → s.presents q = true →
          (∀ p ∈ before, s.presents p = false) →
          exec .memoryPortGrant s =
            .next
              (settle
                { s with
                  arbiter :=
                    ⟨match q with
                      | .passThrough => .record
                      | .record => .notice
                      | .notice => .status
                      | .status => .fetch
                      | .fetch => .passThrough,
                      some q⟩ }))
        ∧ ((s.arbiter.granted ≠ none ∨ ∀ q, s.presents q = false) → exec .memoryPortGrant s = .next s))
    ∧ (∀ s : State, Live s →
      (s.arbiter.granted ≠ some .passThrough → exec .passThroughBurstComplete s = .next s)
        ∧ (s.arbiter.granted ≠ some .record → exec .recordBurstComplete s = .next s)
        ∧ (s.arbiter.granted ≠ some .notice → exec .noticeBurstComplete s = .next s)
        ∧ ((s.arbiter.granted ≠ some .status ∨ ∀ n ws, s.status.presented ≠ some (.block n ws)) →
            exec .statusBurstComplete s = .next s)
        ∧ ((s.arbiter.granted ≠ some .status ∨ ∀ w, s.status.presented ≠ some (.result w)) →
            exec .resultWordComplete s = .next s)
        ∧ (s.arbiter.granted ≠ some .fetch → exec .fetchComplete s = .next s))

/-- O29. A burst writes the lanes its masks set and no other byte of memory, and the words read are those memory holds, lane
by lane (R12). A pass-through burst that is no bay-record read completes DONE: its words are written or read, an argument is
latched (R9), and a settings write takes the delayed entries over its record from the table (R176). -/
def Obligations.PassThroughBurstCompletes : Prop :=
  (∀ (m : Memory) (a : Nat) (ws : List (Mask × Word)), m.wf = true → MemoryWritten m (m.writeWords a ws) a ws)
    ∧ (∀ (m : Memory) (a n : Nat),
      (m.readWords a n).length = n
        ∧ ∀ k, k < n → ∃ w : Word, (m.readWords a n)[k]? = some w
            ∧ ∀ lane, lane < 4 → w.extractLsb' (8 * lane) 8 = m.read (4 * (a + k) + lane))
    ∧ (∀ (r : Request) (p : Path) (s : State), Live s → s.arbiter.granted = some .passThrough →
      s.front.outstanding = some ⟨r, p⟩ →
      let data : List Word := match r.access with | .read n => s.mem.readWords r.addr.toNat n | .write _ => []
      let u : State :=
        { s with
          mem := match r.access with | .read _ => s.mem | .write ws => s.mem.writeWords r.addr.toNat ws
          arbiter := ⟨s.arbiter.start, none⟩ }
      ((p = .plain ∨ p = .commandWord ∨ p = .consumerIndex) →
          exec .passThroughBurstComplete s = .next (settle (completed u r.initiator (.done data))))
        ∧ (∀ mask v rest, r.access = .write ((mask, v) :: rest) →
            (p = .argument .a →
                exec .passThroughBurstComplete s =
                  .next (settle (completed { u with mailbox := { s.mailbox with argA := v } } r.initiator (.done []))))
              ∧ (p = .argument .b →
                exec .passThroughBurstComplete s =
                  .next (settle (completed { u with mailbox := { s.mailbox with argB := v } } r.initiator (.done []))))
              ∧ (p = .argument .c →
                exec .passThroughBurstComplete s =
                  .next (settle (completed { u with mailbox := { s.mailbox with argC := v } } r.initiator (.done [])))))
        ∧ (∀ b, p = .settings b →
            exec .passThroughBurstComplete s =
              .next
                (settle
                  (completed
                    { u with
                      access :=
                        { s.access with
                          table :=
                            s.access.table.filter fun e => s.decoder.windows.bayAt e.key.addr.toNat != some b } }
                    r.initiator (.done data)))))

/-- O30. The sixteen words of a bay record hold the fields of R63 at their bits with the codes of R64, and the settings in words
12-15. Word 0's low half is the record check code: the check code of word 0's high half and the halves of words 1-11 in
order, so that those 23 half-words and the code leave 0 (R65). -/
def Obligations.BayRecordHoldsItsLayout : Prop :=
  ∀ (b : BayNo) (e : BayEntry) (ws : List Word), ws = e.recordWords b →
    let d := e.defrost
    let word (n : Nat) : Word := ws[n]?.getD 0
    let field (n lo width : Nat) : Nat := ((word n).extractLsb' lo width).toNat
    let flag (x : Bool) : Nat := if x then 1 else 0
    let high (n : Nat) : Half := (word n).extractLsb' 16 16
    let low (n : Nat) : Half := (word n).extractLsb' 0 16
    let left : Nat := match d.timer with | .running left _ => left | .stopped | .expired _ => 0
    let covered : List Half :=
      [high 0, high 1, low 1, high 2, low 2, high 3, low 3, high 4, low 4, high 5, low 5, high 6, low 6, high 7, low 7,
        high 8, low 8, high 9, low 9, high 10, low 10, high 11, low 11]
    ws.length = 16
      ∧ field 0 24 8 = b.val ∧ field 0 23 1 = flag e.occupied ∧ field 0 22 1 = flag e.silent
      ∧ field 0 21 1 = flag e.loading
      ∧ field 0 19 2 = (match e.link with | some .hunt => 0 | some .proving => 1 | some .tracked => 2 | none => 3)
      ∧ field 0 18 1 = flag e.readingHeld ∧ field 0 16 2 = 0
      ∧ field 1 22 10 = (match e.radio with | some a => a.toNat | none => 0)
      ∧ field 1 14 8 = e.reading.seq.toNat ∧ field 1 6 8 = e.reading.echo.toNat
      ∧ field 1 5 1 = flag e.reading.doorOpen ∧ field 1 4 1 = flag e.reading.defrostActive
      ∧ field 1 3 1 = flag e.reading.engineRunning ∧ field 1 2 1 = flag e.reading.shorePower
      ∧ field 1 1 1 = (match e.kind with | .diesel => 0 | .electric => 1) ∧ field 1 0 1 = 0
      ∧ word 2 = e.reading.arrival
      ∧ high 3 = e.reading.returnAir ∧ low 3 = e.reading.supplyAir
      ∧ high 4 = e.reading.coil ∧ low 4 = e.reading.setpoint
      ∧ high 5 = e.reading.fuel ∧ field 5 0 16 = (match e.kind with | .diesel => 0 | .electric => 1)
      ∧ field 6 24 8 = d.orderNumber.toNat
      ∧ field 6 21 3 =
        (match d.state with
          | .idle => 0
          | .due => 1
          | .ordered => 2
          | .running => 3
          | .stopping => 4
          | .draining => 5
          | .self => 6)
      ∧ (d.attempts ≤ 7 → field 6 18 3 = d.attempts)
      ∧ field 6 17 1 = (if d.state = .due ∧ d.reason = .held then 1 else 0)
      ∧ field 6 15 2 = (match d.pending with | none => 0 | some ⟨.start, _⟩ => 1 | some ⟨.stop, _⟩ => 2)
      ∧ field 6 11 4 = (match d.grantFeeder with | some f => f.val | none => 15)
      ∧ (d.iceCount ≤ 8 → field 6 7 4 = d.iceCount) ∧ field 6 0 7 = 0
      ∧ (left ≤ 65535 → field 7 16 16 = left)
      ∧ field 7 14 2 = (match e.fuel.state with | .normal => 0 | .low => 1 | .critical => 2 | .noSensor => 3)
      ∧ field 7 12 2 = (match e.door.state with | .closed => 0 | .isOpen => 1 | .openLong => 2) ∧ field 7 0 12 = 0
      ∧ word 8 = (match d.lastEnd with | some t => t | none => 0xFFFFFFFF)
      ∧ word 9 = e.door.since ∧ high 10 = e.door.opens
      ∧ low 10 = (match e.fuel.baseline with | some (level, _) => level | none => 65535)
      ∧ word 11 = (match e.fuel.baseline with | some (_, time) => time | none => 0)
      ∧ ws.drop 12 = e.settings.words
      ∧ low 0 = checkCode covered ∧ checkCode (covered ++ [low 0]) = 0

/-- O31. A record burst is written and leaves the queue; a second burst ends its bay's update: the command whose update it was
completes OK, the Check Engine turns to the waiting events, the Feeder Arbiter acts on the bay's feeder and the fetcher judges
(R66, R67, R69, R110, R173); that the fetcher judges last is log 21. How the Check Engine turns is O24. -/
def Obligations.RecordBurstCompletes : Prop :=
  (∀ (x : RecordBurst) (rest : List RecordBurst) (s : State), Live s → s.arbiter.granted = some .record →
      s.bursts = x :: rest →
      let u : State :=
        { s with
          mem := s.mem.writeWords x.addr (x.words.map fun w => (15, w))
          arbiter := ⟨s.arbiter.start, none⟩
          bursts := rest }
      let ended : State := { u with bays := s.bays.set x.bay { s.bay x.bay with inFlight := false } }
      let more (v : State) : State := fetchJudge (act ((turn x.bay v).bay x.bay).feeder (turn x.bay v))
      (x.ends = false → exec .recordBurstComplete s = .next (settle u))
        ∧ (x.ends = true → s.mailbox.progress ≠ .updating x.bay →
            exec .recordBurstComplete s = .next (settle (more ended)))
        ∧ (∀ cmd, x.ends = true → s.mailbox.progress = .updating x.bay → s.mailbox.current = some cmd →
            exec .recordBurstComplete s =
              .next
                (settle
                  (more
                    { ended with
                      mailbox := resultIn s.mailbox cmd.code .ok
                      status := { s.status with resultPending := true } }))))

/-- O32. A notice burst is written to slot p, the producer index advances by one, and a rewrite is asked for (R151, R152). -/
def Obligations.NoticeBurstAdvancesTheProducer : Prop :=
  ∀ (ws : List Word) (s : State), Live s → s.arbiter.granted = some .notice →
    s.ring.inFlight = some ws →
    exec .noticeBurstComplete s =
      .next
        (settle
          { s with
            mem :=
              s.mem.writeWords (s.decoder.windows.ring.base * 1024 + s.ring.producer.toNat * 4)
                (ws.map fun w => (15, w))
            arbiter := ⟨s.arbiter.start, none⟩
            ring := { s.ring with producer := s.ring.producer + 1, inFlight := none }
            status := { s.status with wanted := true } })

/-- O33. A status burst is written to its offsets; a result word that waits is presented next, ahead of the next burst of the
rewrite; the third burst ends the rewrite and ATTN_N follows its cause word (R10, R167, R195; log 13). The result word is
written to setup offset 4, the mailbox becomes DONE with no current command, and a rewrite is asked for (R190); its layout:
command code, result code, 0, completion number. -/
def Obligations.StatusBurstCompletes : Prop :=
  (∀ (n : Nat) (ws : List Word) (s : State), Live s → s.arbiter.granted = some .status →
      s.status.presented = some (.block n ws) → 1 ≤ n → n ≤ 3 →
      let u : State :=
        { s with
          mem := s.mem.writeWords (setupFirst s + 8 + 8 * n) (ws.map fun w => (15, w))
          arbiter := ⟨s.arbiter.start, none⟩
          status := { s.status with presented := none, rewrite := if n = 3 then none else some (n + 1) }
          pins := { s.pins with attnN := if n = 3 then !s.status.causeShown else s.pins.attnN } }
      (s.status.resultPending = false → exec .statusBurstComplete s = .next (settle u))
        ∧ (s.status.resultPending = true →
            exec .statusBurstComplete s =
              .next
                (settle
                  { u with
                    status :=
                      { u.status with
                        resultPending := false, presented := some (.result (resultWord s.mailbox)) } })))
    ∧ ((∀ (w : Word) (s : State), Live s → s.arbiter.granted = some .status →
        s.status.presented = some (.result w) →
        exec .resultWordComplete s =
          .next
            (settle
              { s with
                mem := s.mem.writeWords (setupFirst s + 4) [(15, w)]
                arbiter := ⟨s.arbiter.start, none⟩
                mailbox := { s.mailbox with state := .done, current := none, progress := .none }
                status := { s.status with presented := none, wanted := true } }))
      ∧ ∀ m : Mailbox,
          (resultWord m).extractLsb' 24 8 = m.lastCode ∧ (resultWord m).extractLsb' 16 4 = 0
            ∧ (resultWord m).extractLsb' 0 16 = m.completions
            ∧ ((resultWord m).extractLsb' 20 4).toNat =
              match m.lastResult with
              | none => 0
              | some .ok => 1
              | some .badArg => 2
              | some .badState => 3
              | some .notFound => 4)

/-- O34. A fetch that is not void makes its entry READY with the words memory holds and its reclaim timer started; the words of
a void fetch, or of one whose entry has left the table, are dropped; then the fetcher judges again: with no fetch under way it
presents the oldest QUEUED entry whose record has no update in flight, a lock or not (R173). A bay-record read passed to
memory is judged again at the completion of its burst: overtaken by an update it is retried, with an entry when the lock flag
is clear; otherwise it completes DONE with the words read, and a locked read takes a matching entry from the table (R170,
R171, R179). -/
def Obligations.FetchesAndPassedReadsComplete : Prop :=
  (∀ (x : Fetch) (s : State), Live s → s.arbiter.granted = some .fetch → s.access.fetch = some x →
      exec .fetchComplete s =
        .next
          (settle
            (fetchJudge
              { s with
                arbiter := ⟨s.arbiter.start, none⟩
                access :=
                  { s.access with
                    fetch := none
                    table :=
                      if x.void then s.access.table
                      else
                        s.access.table.map fun e =>
                          if e.key = x.key then
                            ⟨x.key, .ready (s.mem.readWords x.key.addr.toNat x.key.length) s.params.reclaimTime⟩
                          else e } })))
    ∧ (∀ s : State,
      (s.access.fetch ≠ none → fetchJudge s = s)
        ∧ (s.access.fetch = none → (∀ e ∈ s.access.table, ¬ Fetchable s e) → fetchJudge s = s)
        ∧ (∀ e before after, s.access.fetch = none → s.access.table = before ++ e :: after → Fetchable s e →
            (∀ y ∈ before, ¬ Fetchable s y) →
            fetchJudge s = { s with access := { s.access with fetch := some ⟨e.key, false⟩ } }))
    ∧ (∀ (i : Initiator) (a : WordAddr) (n : Nat) (lock : Bool) (b : BayNo) (overtaken : Bool) (s : State),
        Live s → s.arbiter.granted = some .passThrough →
        s.front.outstanding = some ⟨⟨i, a, lock, .read n⟩, .bayRead b overtaken⟩ →
        let u : State := { s with arbiter := ⟨s.arbiter.start, none⟩ }
        (overtaken = true → lock = false → (s.bay b).inFlight = true →
            exec .passThroughBurstComplete s =
              .next
                (settle
                  (completed
                    { u with
                      access :=
                        { s.access with
                          table :=
                            if (∀ e ∈ s.access.table, e.key ≠ ⟨i, a, n⟩) ∧ s.access.table.length < 4 then
                              s.access.table ++ [⟨⟨i, a, n⟩, .queued⟩]
                            else s.access.table } }
                    i .retry)))
          ∧ (overtaken = true → (lock = true ∨ (s.bay b).inFlight = false) →
              exec .passThroughBurstComplete s = .next (settle (completed u i .retry)))
          ∧ (overtaken = false → lock = false →
              exec .passThroughBurstComplete s =
                .next (settle (completed u i (.done (s.mem.readWords a.toNat n)))))
          ∧ (overtaken = false → lock = true →
              exec .passThroughBurstComplete s =
                .next
                  (settle
                    (completed
                      { u with
                        access := { s.access with table := s.access.table.filter fun e => e.key != ⟨i, a, n⟩ } }
                      i (.done (s.mem.readWords a.toNat n))))))

/-! ## Frames -/

/-- O35. The check code is that of R31: a register from FFFFh, each half-word fed from bit 15 down to bit 0, shifted left and
exclusive-ored with 1021h when the feedback is 1; a list with its code behind it leaves 0, and with no other half-word does.
A frame is good exactly when its check code matches, its format is 01, its address is the slot's, its temperatures and
setpoint lie from -500 to 500 and its fuel level is 0-1000 or 65535 (R32). -/
def Obligations.FrameIsGoodByItsFiveTests : Prop :=
  (∀ xs : List Half,
      let feed (reg : Half) (bit : Bool) : Half :=
        if reg.getLsbD 15 = bit then reg <<< 1 else (reg <<< 1) ^^^ 0x1021
      checkCode xs = (xs.flatMap fun x => (List.range 16).map fun k => x.getLsbD (15 - k)).foldl feed 0xFFFF
        ∧ ∀ c : Half, checkCode (xs ++ [c]) = 0 ↔ c = checkCode xs)
    ∧ ∀ (f : Frame) (a : RadioAddr),
      let high (w : Word) : Half := w.extractLsb' 16 16
      let low (w : Word) : Half := w.extractLsb' 0 16
      let inRange (t : Half) : Prop := -500 ≤ t.toInt ∧ t.toInt ≤ 500
      f.good a = true ↔
        checkCode [high f.w0, low f.w0, high f.w1, low f.w1, high f.w2, low f.w2, high f.w3] = low f.w3
          ∧ f.w0.extractLsb' 0 2 = 1
          ∧ f.w0.extractLsb' 22 10 = a
          ∧ inRange (high f.w1) ∧ inRange (low f.w1) ∧ inRange (high f.w2) ∧ inRange (low f.w2)
          ∧ ((high f.w3).toNat ≤ 1000 ∨ (high f.w3).toNat = 65535)

/-- O36. A mapped frame taken in HUNT (R43): a good one puts its entry in PROVING with proof 1 and last sequence s, a bad one
adds one to bad check; either is discarded. A mapped frame taken in PROVING (R44): a duplicate is counted, the next in
sequence raises the proof and may reach TRACKED and be handed on, another good one restarts the proof, and a bad one sends
the link back to HUNT. -/
def Obligations.HuntAndProvingTakes : Prop :=
  (∀ (e : InboxEntry) (rest : List InboxEntry) (t : TagEntry) (s : State), Taking s e rest →
        injected s e ≠ some .drop → s.link.entryOf e.radio = some t → t.track = .hunt →
        (Good s e →
            exec .takeFrame s =
              .next
                (settle
                  (withEntry (frameTaken s e rest id) { t with track := .proving, proof := 1, lastSeq := treated s e })))
          ∧ (¬ Good s e →
              exec .takeFrame s =
                .next
                  (settle
                    (withEntry (frameTaken s e rest fun c => { c with badCheck := satAdd c.badCheck 1 }) t))))
    ∧ (∀ (e : InboxEntry) (rest : List InboxEntry) (t t' : TagEntry) (s : State), Taking s e rest →
        injected s e ≠ some .drop → s.link.entryOf e.radio = some t → t.track = .proving →
        (Good s e → treated s e = t.lastSeq →
            exec .takeFrame s =
              .next
                (settle (withEntry (frameTaken s e rest fun c => { c with duplicates := satAdd c.duplicates 1 }) t)))
          ∧ (Good s e → treated s e = t.lastSeq + 1 → s.params.proofCount ≤ t.proof + 1 →
              t' = { t with track := .tracked, proof := 0, bad := 0, lastSeq := treated s e } →
              exec .takeFrame s =
                .next
                  (settle
                    (handOn ⟨e.frame, treated s e, e.radio, e.arrival, t.bay⟩
                      (withLinkCondition (withEntry (frameTaken s e rest id) t') .tracked t' e.arrival
                        s.params.proofCount))))
          ∧ (Good s e → treated s e = t.lastSeq + 1 → t.proof + 1 < s.params.proofCount →
              exec .takeFrame s =
                .next
                  (settle
                    (withEntry (frameTaken s e rest id) { t with proof := t.proof + 1, lastSeq := treated s e })))
          ∧ (Good s e → treated s e ≠ t.lastSeq → treated s e ≠ t.lastSeq + 1 →
              exec .takeFrame s =
                .next (settle (withEntry (frameTaken s e rest id) { t with proof := 1, lastSeq := treated s e })))
          ∧ (¬ Good s e →
              exec .takeFrame s =
                .next
                  (settle
                    (withEntry (frameTaken s e rest fun c => { c with badCheck := satAdd c.badCheck 1 })
                      { t with track := .hunt, proof := 0 }))))

/-- O37. A mapped frame taken in TRACKED: a good one by the distance of its sequence (R45), a bad one toward the lapse (R46). -/
def Obligations.TrackedTakes : Prop :=
  ∀ (e : InboxEntry) (rest : List InboxEntry) (t t' : TagEntry) (d : Nat) (s : State), Taking s e rest →
    injected s e ≠ some .drop → s.link.entryOf e.radio = some t → t.track = .tracked →
    d = (treated s e - t.lastSeq).toNat →
    (Good s e → d = 0 →
        exec .takeFrame s =
          .next
            (settle (withEntry (frameTaken s e rest fun c => { c with duplicates := satAdd c.duplicates 1 }) t)))
      ∧ (Good s e → 1 ≤ d → d ≤ 16 →
          exec .takeFrame s =
            .next
              (settle
                (handOn ⟨e.frame, treated s e, e.radio, e.arrival, t.bay⟩
                  (withEntry (frameTaken s e rest fun c => { c with gaps := satAdd c.gaps (d - 1) })
                    { t with lastSeq := treated s e, bad := 0 }))))
      ∧ (Good s e → 17 ≤ d →
          exec .takeFrame s =
            .next
              (settle (withEntry (frameTaken s e rest fun c => { c with outOfOrder := satAdd c.outOfOrder 1 }) t)))
      ∧ (¬ Good s e → t.bad + 1 < s.params.lapseCount →
          exec .takeFrame s =
            .next
              (settle
                (withEntry (frameTaken s e rest fun c => { c with badCheck := satAdd c.badCheck 1 })
                  { t with bad := t.bad + 1 })))
      ∧ (¬ Good s e → s.params.lapseCount ≤ t.bad + 1 → t' = { t with track := .hunt, bad := 0, proof := 0 } →
          exec .takeFrame s =
            .next
              (settle
                (withLinkCondition
                  (withEntry (frameTaken s e rest fun c => { c with badCheck := satAdd c.badCheck 1 }) t') .lapsed t'
                  e.arrival s.params.lapseCount)))

/-- O38. An unmapped frame is counted and, when good, counted in its Unknown Tag List entry, listed in the lowest-numbered
empty place with its TAG source raised, or counted as overflow (R50, R52); a frame under a DROP injection leaves no trace
but the injection (R41); and where R38 allows no take none occurs (log 5). -/
def Obligations.UnmappedAndDroppedTakes : Prop :=
  (∀ (e : InboxEntry) (rest : List InboxEntry) (c : Counters → Counters) (s : State), Taking s e rest →
      injected s e ≠ some .drop → s.link.entryOf e.radio = none →
      c = (fun c => { c with unmappedFrames := satAdd c.unmappedFrames 1 }) →
      (¬ Good s e →
          exec .takeFrame s =
            .next (settle (frameTaken s e rest fun x => { c x with badCheck := satAdd x.badCheck 1 })))
        ∧ (∀ (k : Fin 16) (x : UnknownEntry), Good s e → s.link.unknown[k] = some x → x.radio = e.radio →
            (∀ j : Fin 16, j < k → ∀ y, s.link.unknown[j] = some y → y.radio ≠ e.radio) →
            exec .takeFrame s =
              .next
                (settle
                  { frameTaken s e rest c with
                    link :=
                      { (frameTaken s e rest c).link with
                        unknown := s.link.unknown.set k (some { x with seen := satAdd x.seen 1 }) } }))
        ∧ (∀ k : Fin 16, Good s e → (∀ (j : Fin 16) (y : UnknownEntry), s.link.unknown[j] = some y → y.radio ≠ e.radio) →
            s.link.unknown[k] = none → (∀ j : Fin 16, j < k → s.link.unknown[j] ≠ none) →
            exec .takeFrame s =
              .next
                (settle
                  { frameTaken s e rest c with
                    link :=
                      { (frameTaken s e rest c).link with
                        unknown := s.link.unknown.set k (some ⟨e.radio, e.arrival, treated s e, 1⟩) }
                    sources := { s.sources with tags := s.sources.tags.set k true } }))
        ∧ (Good s e → (∀ (j : Fin 16) (y : UnknownEntry), s.link.unknown[j] = some y → y.radio ≠ e.radio) →
            (∀ k : Fin 16, s.link.unknown[k] ≠ none) →
            exec .takeFrame s =
              .next
                (settle
                  (frameTaken s e rest fun x => { c x with unknownOverflow := satAdd x.unknownOverflow 1 }))))
    ∧ (∀ (e : InboxEntry) (rest : List InboxEntry) (s : State), Taking s e rest → injected s e = some .drop →
        exec .takeFrame s = .next (settle { s with inbox := rest, link := { s.link with injection := none } }))
    ∧ ∀ s : State, Live s → (s.decoder.mode ≠ .run ∨ s.inbox = [] ∨ s.link.handOff ≠ none) →
        exec .takeFrame s = .next s

/-- O39. A frame handed on to bay b (R39, R67, R70, R72, R73): at a locked bay it takes the deferred slot, counting the frame
it replaces as superseded; behind an update it waits in the hand-off place; at a free bay that it does not fit it is
discarded; and otherwise the update that evaluates it begins: store, fuel, defrost and door stages in turn. -/
def Obligations.FrameReachesItsBay : Prop :=
  ∀ (h : HandedFrame) (b : BayNo) (s : State), h.bay = b →
    (s.locked b = true → (s.bay b).deferred = none →
        handOn h s =
          { s with
            bays := s.bays.set b { s.bay b with deferred := some h }
            link := { s.link with handOff := none } })
      ∧ (∀ old, s.locked b = true → (s.bay b).deferred = some old →
          handOn h s =
            { s with
              bays := s.bays.set b { s.bay b with deferred := some h }
              link := { s.link with handOff := none }
              counters := { s.counters with superseded := satAdd s.counters.superseded 1 }
              status :=
                { s.status with
                  counterChanged :=
                    s.status.counterChanged
                      || { s.counters with superseded := satAdd s.counters.superseded 1 } != s.counters } })
      ∧ (s.locked b = false → (s.bay b).inFlight = true →
          handOn h s =
            { s with
              bays := s.bays.set b { s.bay b with waiting := (s.bay b).waiting ++ [.handOffFrame] }
              link := { s.link with handOff := some h } })
      ∧ (s.locked b = false → (s.bay b).inFlight = false →
          ((s.bay b).occupied = false ∨ (s.bay b).radio ≠ some h.radio) →
          handOn h s = { s with link := { s.link with handOff := none } })
      ∧ (∀ w w1 w2 w3 w4 : Work, s.locked b = false → (s.bay b).inFlight = false → (s.bay b).occupied = true →
          (s.bay b).radio = some h.radio →
          w = Work.start (copied s b) → w1 = w.storeStage (s.ctx b) h → w2 = w1.fuelStage →
          w3 = w2.defrostStage (s.ctx b) → w4 = w3.doorStage w2.bay.defrost.state →
          handOn h s =
            feederReports b w4.reports
              { updateBegun s b w4.bay false with
                link := { s.link with handOff := none }
                sources := (raiseAll b w4.conds (tellOrders b w4.orders s)).sources })

/-- O40. The store stage (R74): the reading is stored, a silent flag is cleared with RESUMED and reported, and the silence timer
starts with the silence limit, its expiries that wait or are held going stale (O24); nothing else of the entry changes. The
fuel stage of a DIESEL bay: the fuel state by the table
of R128 or NO_SENSOR (R127), the baseline of R130 and at most one FUEL condition, the first found in the list of R133; an
ELECTRIC bay skips the stage (R126). -/
def Obligations.StoreAndFuelStagesFollowTheirTables : Prop :=
  (∀ (c : Ctx) (h : HandedFrame) (w : Work),
      ∃ w', w' = w.storeStage c h
        ∧ w'.bay =
          { w.bay.markStale .silence with
            reading :=
              ⟨h.frame.w0.getLsbD 5, h.frame.w0.getLsbD 4, h.frame.w0.getLsbD 3, h.frame.w0.getLsbD 2,
                h.frame.w0.extractLsb' 6 8, h.frame.w1.extractLsb' 16 16, h.frame.w1.extractLsb' 0 16,
                h.frame.w2.extractLsb' 16 16, h.frame.w2.extractLsb' 0 16, h.frame.w3.extractLsb' 16 16, h.seq,
                h.arrival⟩,
            readingHeld := true, silent := false, silence := .running c.params.silenceLimit c.params.silenceLimit }
        ∧ w'.orders = w.orders
        ∧ (w.bay.silent = false → w'.conds = w.conds ∧ w'.reports = w.reports)
        ∧ (w.bay.silent = true →
            w'.conds =
                w.conds
                  ++ [(.link,
                      ⟨.resumed, h.arrival, .radio (w.bay.radio.getD 0) h.seq, h.arrival - w.bay.silentSince⟩)]
              ∧ w'.reports = w.reports ++ [.mayBeEligible w.bay.feeder]))
    ∧ (∀ (w w' : Work) (level low crit hyst : Nat), w' = w.fuelStage → level = w.bay.reading.fuel.toNat →
      low = w.bay.settings.fuelLow.toNat → crit = w.bay.settings.fuelCritical.toNat →
      hyst = w.bay.settings.fuelHysteresis.toNat →
      (w.bay.kind = .electric → w' = w)
        ∧ (w.bay.kind = .diesel →
            w'.bay =
                { w.bay with
                  fuel :=
                    ⟨w'.bay.fuel.state,
                      if level ≤ 1000 then some (w.bay.reading.fuel, w.bay.reading.arrival) else w.bay.fuel.baseline⟩ }
              ∧ w'.reports = w.reports ∧ w'.orders = w.orders
              ∧ (1000 < level → w'.bay.fuel.state = .noSensor)
              ∧ (level ≤ 1000 →
                  (level ≤ crit → w'.bay.fuel.state = .critical)
                    ∧ (crit < level →
                        ((w.bay.fuel.state = .normal ∨ w.bay.fuel.state = .noSensor) →
                            w'.bay.fuel.state = if level ≤ low then .low else .normal)
                          ∧ (w.bay.fuel.state = .low → w'.bay.fuel.state = if level < low + hyst then .low else .normal)
                          ∧ (w.bay.fuel.state = .critical →
                              w'.bay.fuel.state =
                                if level < crit + hyst then .critical else if level < low + hyst then .low
                                else .normal)))
              ∧ ∀ (stateCode : Option Code) (drop refuel : Option Nat) (value : Code → Nat → Condition),
                  (stateCode =
                      if w'.bay.fuel.state = w.bay.fuel.state then none
                      else
                        match w'.bay.fuel.state with
                        | .normal => none
                        | .low => some .low
                        | .critical => some (if w.bay.reading.shorePower then .critical else .criticalNoPower)
                        | .noSensor => some .sensor) →
                  (∀ n, drop = some n ↔
                      ∃ base time, w.bay.fuel.baseline = some (base, time) ∧ level ≤ 1000
                        ∧ w.bay.reading.engineRunning = false ∧ (w.bay.reading.arrival - time).toNat ≤ 900
                        ∧ level + w.bay.settings.fuelDrop.toNat ≤ base.toNat ∧ n = base.toNat - level) →
                  (∀ n, refuel = some n ↔
                      ∃ base time, w.bay.fuel.baseline = some (base, time) ∧ level ≤ 1000 ∧ base.toNat + 100 ≤ level
                        ∧ n = level - base.toNat) →
                  value =
                    (fun code v =>
                      ⟨code, w.bay.reading.arrival, .radio (w.bay.radio.getD 0) w.bay.reading.seq,
                        BitVec.ofNat 32 v⟩) →
                  w'.conds =
                    w.conds
                      ++ match stateCode, drop, refuel with
                        | some .sensor, _, _ => [(.fuel, value .sensor level)]
                        | some .criticalNoPower, _, _ => [(.fuel, value .criticalNoPower level)]
                        | some .critical, _, _ => [(.fuel, value .critical level)]
                        | _, some n, _ => [(.fuel, value .drop n)]
                        | _, none, some n => [(.fuel, value .refuel n)]
                        | some code, none, none => [(.fuel, value code level)]
                        | none, none, none => []))

/-- O41. The defrost stage: the ice count of R87, then the one transition of R94-R98 by the state found and the frame, with its
whole result: the entry (R81, R83, R84, R89, R90), the reports to the Feeder Arbiter (R82), what the Notice Writer is told of
the pending order (R158) and the DEFROST condition (R86). A start or stop of the defrost timer makes its expiries stale (O24),
and a bay that leaves DUE has its reason put back to QUEUED (log 16). -/
def Obligations.DefrostStageFollowsItsTables : Prop :=
  ∀ (c : Ctx) (w w' : Work) (e : BayEntry) (d : DefrostRecord) (ice : Nat) (on : Bool), w' = w.defrostStage c →
    e = w.bay → on = e.reading.defrostActive → e.readingHeld = true →
    ice =
      (if e.reading.coil.toInt ≤ 10 * e.settings.coilIcePoint.toInt
          ∧ e.reading.returnAir.toInt - e.reading.supplyAir.toInt ≤ e.settings.iceMargin.toNat ∧ on = false then
        min 8 (e.defrost.iceCount + 1)
      else 0) →
    d = { e.defrost with iceCount := ice } →
    let result (bay : BayEntry) (reports : List Report) (orders : List OrderTell)
        (conds : List (AlertKind × Condition)) : Prop :=
      w' = ⟨bay, w.reports ++ reports, w.orders ++ orders, w.conds ++ conds⟩
    let kept (x : DefrostRecord) : BayEntry := { e with defrost := x }
    let timed (x : DefrostRecord) : BayEntry := { e.markStale .defrost with defrost := x }
    let ordered (x : DefrostRecord) (k : OrderKind) : DefrostRecord :=
      { x with orderNumber := nextOrderNumber d.orderNumber, lastKind := some k, pending := some ⟨k, x.grantFeeder⟩ }
    let engineStart (x : DefrostRecord) : BayEntry :=
      timed
        (ordered
          { x with
            state := .ordered, reason := .queued, grantFeeder := none,
            timer := .running c.params.startWindow c.params.startWindow }
          .start)
    let running (x : DefrostRecord) : BayEntry :=
      timed { x with state := .running, timer := .running c.params.maxDefrost c.params.maxDefrost }
    let stopping : BayEntry :=
      timed
        (ordered
          { d with state := .stopping, timer := .running c.params.stopWindow c.params.stopWindow } .stop)
    let toSelf : BayEntry := timed { d with state := .self, reason := .queued, timer := .stopped }
    let unordered (left : Word) : AlertKind × Condition :=
      (.defrost, ⟨.unordered, e.reading.arrival, .radio (e.radio.getD 0) e.reading.seq, left⟩)
    let demand : Prop :=
      e.settings.defrostInterval.toNat * 60 ≤ (e.reading.arrival - d.lastEnd.getD e.occStart).toNat
        ∨ c.params.iceConfirm ≤ ice
    let late : Prop := e.reading.echo = d.orderNumber ∧ d.lastKind = some .start
    let shore : Bool := e.reading.shorePower
    let engineReady : Bool := e.kind == .diesel && e.fuel.state == .normal
    let fuelStop : Prop := d.grantFeeder = none ∧ e.fuel.state ≠ .normal
    let leaves : List Report := if d.reason = .queued then [.leaveQueue e.feeder] else []
    (d.state = .idle → on = false → ¬ demand → result (kept d) [] [] [])
      ∧ (d.state = .idle → on = false → demand →
          let due : DefrostRecord := { d with state := .due, iceCount := 0, timer := .stopped }
          (shore = true → result (timed { due with reason := .queued }) [.joinQueue e.feeder c.now] [] [])
            ∧ (shore = false → engineReady = true → result (engineStart { d with iceCount := 0 }) [] [.pends] [])
            ∧ (shore = false → engineReady = false → result (timed { due with reason := .held }) [] [] []))
      ∧ ((d.state = .idle ∨ d.state = .draining) → on = true →
          result (timed { d with state := .self, timer := .stopped }) [.selfJoin e.feeder] []
            [unordered (if d.state = .idle then 0 else 5)])
      ∧ (d.state = .draining → on = false → result (kept d) [] [] [])
      ∧ (d.state = .due → on = false →
          (d.reason = .queued → shore = true → result (kept d) [] [] [])
            ∧ (d.reason = .held → shore = true →
                result (kept { d with reason := .queued }) [.joinQueue e.feeder c.now] [] [])
            ∧ (shore = false → engineReady = true → result (engineStart d) leaves [.pends] [])
            ∧ (shore = false → engineReady = false → result (kept { d with reason := .held }) leaves [] []))
      ∧ (d.state = .due → on = true → late →
          (shore = true → c.room = true →
              result (running { d with reason := .queued, grantFeeder := some e.feeder }) [.directGrant e.feeder] [] [])
            ∧ (shore = false → engineReady = true →
                result (running { d with reason := .queued, grantFeeder := none }) leaves [] []))
      ∧ (d.state = .due → on = true →
          (¬ late ∨ (shore = true ∧ c.room = false) ∨ (shore = false ∧ engineReady = false)) →
          result toSelf (leaves ++ [.selfJoin e.feeder]) [] [unordered 1])
      ∧ (d.state = .ordered →
          (fuelStop → result stopping [] [.pends] [])
            ∧ (¬ fuelStop → on = false → result (kept d) [] [] [])
            ∧ (¬ fuelStop → on = true →
                result (running d) [] []
                  (if e.reading.echo = d.orderNumber then []
                  else
                    [(.defrost,
                      ⟨.echoMismatch, e.reading.arrival, .order d.orderNumber d.grantFeeder,
                        BitVec.ofNat 32 e.reading.echo.toNat⟩)])))
      ∧ ((d.state = .running ∨ d.state = .stopping ∨ d.state = .self) → on = false →
          ∀ (x : DefrostRecord) (reports : List Report) (orders : List OrderTell),
            (d.state = .self → x = d ∧ reports = [.selfLeave e.feeder] ∧ orders = []) →
            (d.state ≠ .self →
              x = { d with grantFeeder := none, pending := startWithdrawn d } ∧ reports = releaseReport d
                ∧ orders = (match d.pending with | some ⟨.start, _⟩ => [.withdrawn] | _ => [])) →
            (0 < c.params.drainTime →
                result
                  (timed
                    { x with
                      state := .draining, lastEnd := some e.reading.arrival, attempts := 0,
                      timer := .running c.params.drainTime c.params.drainTime })
                  reports orders [])
              ∧ (c.params.drainTime = 0 →
                result
                  (timed
                    { x with
                      state := .idle, lastEnd := some e.reading.arrival, attempts := 0, iceCount := 0,
                      grantFeeder := none, timer := .stopped })
                  reports orders []))
      ∧ (d.state = .running → on = true →
          (fuelStop → result stopping [] [.pends] []) ∧ (¬ fuelStop → result (kept d) [] [] []))
      ∧ ((d.state = .stopping ∨ d.state = .self) → on = true → result (kept d) [] [] [])

/-- O42. The door stage: opening, closing and IN_DEFROST (R140-R143, R145); a start or stop of the door timer makes its
expiries stale (O24). `found` is the defrost state the defrost stage found. -/
def Obligations.DoorStageFollowsItsTables : Prop :=
  ∀ (found : DefrostState) (w w' : Work) (e : BayEntry) (limit : Nat), w' = w.doorStage found → e = w.bay →
    limit = (if e.loading then e.settings.loadingDoorLimit else e.settings.doorLimit).toNat →
    let condition (code : Code) (since : Time) : Condition :=
      ⟨code, e.reading.arrival, .radio (e.radio.getD 0) e.reading.seq, e.reading.arrival - since⟩
    let brought : Bool := e.defrost.state == .running && found != .running
    (e.reading.doorOpen = true → e.door.state = .closed →
        w'.bay =
            { e.markStale .door with
              door := ⟨.isOpen, e.reading.arrival, satAdd e.door.opens 1, .running limit limit⟩ }
          ∧ w'.conds =
            w.conds ++ if e.defrost.state = .running then [(.door, condition .inDefrost e.reading.arrival)] else [])
      ∧ (e.reading.doorOpen = true → e.door.state ≠ .closed →
          w'.bay = e
            ∧ w'.conds = w.conds ++ if brought then [(.door, condition .inDefrost e.door.since)] else [])
      ∧ (e.reading.doorOpen = false → e.door.state = .closed → w' = w)
      ∧ (e.reading.doorOpen = false → e.door.state = .isOpen →
          w'.bay = { e.markStale .door with door := { e.door with state := .closed, timer := .stopped } } ∧ w'.conds = w.conds)
      ∧ (e.reading.doorOpen = false → e.door.state = .openLong →
          w'.bay = { e with door := { e.door with state := .closed } }
            ∧ w'.conds = w.conds ++ [(.door, condition .closedAfterLong e.door.since)])
      ∧ w'.reports = w.reports ∧ w'.orders = w.orders

/-! ## Expiries of a bay's timers -/

/-- O43. The silence expiry at a free bay sets the silent flag with SILENT (R75), and the door expiry moves the door to
OPEN_LONG with OPEN_LONG (R144); each begins an update. An expiry of any of a bay's timers joins the held events of a locked
bay and the waiting events of a bay with an update in flight (R67, R70), its timer expired from then on (log 23); where the
timer has not run out in RUN none occurs (log 5, log 11). -/
def Obligations.SilenceAndDoorExpiriesBeginUpdates : Prop :=
  (∀ (b : BayNo) (n : Nat) (s : State), FreeBay s b →
      (RunOut s b .silence n →
          exec (.silenceExpiry b) s =
            .next
              (settle
                { updateBegun s b
                    { copied s b with silent := true, silentSince := s.clock.time, silence := .stopped } false with
                  sources :=
                    s.sources.raiseAlert b .link
                      ⟨.silent, s.clock.time, .radio ((s.bay b).radio.getD 0) (s.bay b).reading.seq,
                        s.clock.time
                          - (if (s.bay b).readingHeld then (s.bay b).reading.arrival else (s.bay b).occStart)⟩ }))
        ∧ (RunOut s b .door n →
          exec (.doorTimerExpiry b) s =
            .next
              (settle
                { updateBegun s b
                    { copied s b with door := { (s.bay b).door with state := .openLong, timer := .stopped } } false with
                  sources :=
                    s.sources.raiseAlert b .door
                      ⟨.openLong, s.clock.time, .radio ((s.bay b).radio.getD 0) (s.bay b).reading.seq,
                        s.clock.time - (s.bay b).door.since⟩ })))
    ∧ (∀ (c : Instr) (b : BayNo) (t : BayTimer) (s : State), ExpiryOf s b t c →
      (∀ n, RunOut s b t n →
          let e : BayEntry := (s.bay b).putTimer t (.expired n)
          (s.locked b = true →
              exec c s =
                .next (settle { s with bays := s.bays.set b { e with held := e.held ++ [.expiry t false] } }))
            ∧ (s.locked b = false → (s.bay b).inFlight = true →
              exec c s =
                .next (settle { s with bays := s.bays.set b { e with waiting := e.waiting ++ [.expiry t false] } })))
        ∧ (Live s → (∀ n, ¬ RunOut s b t n) → exec c s = .next s))

/-- O44. The start window's expiry at a free bay in ORDERED releases the grant, withdraws a START not posted and adds one to
attempts; below max attempts the bay is routed again from DUE, and otherwise it goes to IDLE with NO_START (R99). The max
defrost expiry in RUNNING moves the bay to STOPPING with a STOP and OVERRUN, keeping the grant (R100); the stop window expiry
in STOPPING releases the grant and moves it to SELF with NO_STOP (R101); the drain time expiry in DRAINING moves it to IDLE
(R102). -/
def Obligations.DefrostTimersEndTheirStates : Prop :=
  (∀ (b : BayNo) (n : Nat) (s : State), FreeBay s b → RunOut s b .defrost n → (s.bay b).defrost.state = .ordered →
      let d := (s.bay b).defrost
      let q := withStartWithdrawn s.sources b d
      (∀ e reports q', d.attempts + 1 < s.params.maxAttempts →
          Routed s.params.startWindow s.clock.time b
            { copied s b with
              defrost :=
                { d with
                  state := .due, attempts := d.attempts + 1, grantFeeder := none, pending := startWithdrawn d,
                  timer := .stopped } }
            q e reports q' →
          exec (.startWindowExpiry b) s =
            .next
              (settle
                (feederReports b (releaseReport d ++ reports) { updateBegun s b e false with sources := q' })))
        ∧ (s.params.maxAttempts ≤ d.attempts + 1 →
          exec (.startWindowExpiry b) s =
            .next
              (settle
                (feederReports b (releaseReport d)
                  { updateBegun s b
                      { copied s b with
                        defrost :=
                          { d with
                            state := .idle, attempts := 0, iceCount := 0, lastEnd := some s.clock.time,
                            grantFeeder := none, pending := startWithdrawn d, timer := .stopped } }
                      false with
                    sources :=
                      q.raiseAlert b .defrost
                        ⟨.noStart, s.clock.time, .order d.orderNumber d.grantFeeder,
                          BitVec.ofNat 32 (d.attempts + 1)⟩ }))))
    ∧ (∀ (b : BayNo) (n : Nat) (s : State), FreeBay s b → RunOut s b .defrost n →
      let d := (s.bay b).defrost
      (d.state = .running →
          exec (.maxDefrostExpiry b) s =
            .next
              (settle
                { updateBegun s b
                    { copied s b with
                      defrost :=
                        { d with
                          state := .stopping, timer := .running s.params.stopWindow s.params.stopWindow,
                          orderNumber := nextOrderNumber d.orderNumber, lastKind := some .stop,
                          pending := some ⟨.stop, d.grantFeeder⟩ } }
                    false with
                  sources :=
                    (s.sources.orderPends b s.clock.time).raiseAlert b .defrost
                      ⟨.overrun, s.clock.time, .order (nextOrderNumber d.orderNumber) d.grantFeeder,
                        BitVec.ofNat 32 n⟩ }))
        ∧ (d.state = .stopping →
          exec (.stopWindowExpiry b) s =
            .next
              (settle
                (feederReports b (releaseReport d ++ [.selfJoin (s.bay b).feeder])
                  { updateBegun s b
                      { copied s b with
                        defrost :=
                          { d with
                            state := .self, grantFeeder := none, pending := startWithdrawn d, timer := .stopped } }
                      false with
                    sources :=
                      (withStartWithdrawn s.sources b d).raiseAlert b .defrost
                        ⟨.noStop, s.clock.time, .order d.orderNumber d.grantFeeder, BitVec.ofNat 32 n⟩ })))
        ∧ (d.state = .draining →
          exec (.drainExpiry b) s =
            .next
              (settle
                (updateBegun s b
                  { copied s b with
                    defrost :=
                      { d with state := .idle, attempts := 0, iceCount := 0, grantFeeder := none, timer := .stopped } }
                  false))))

/-! ## The Feeder Arbiter -/

/-- O45. Acting on a feeder (R91, R108, R111, R112): one that is not ACTIVE, has no room or no eligible bay grants nothing;
otherwise the bay nearest the front that is eligible is granted, with its grant update begun, and the arbiter acts again. The
reports of one update, whatever they are, are applied in the order direct grant, leave-queue, release, self-count changes,
join-queue, and the arbiter then acts on each feeder they touched (R82, R109, R110, R113); the lists an update makes follow.
Every report of an update names the bay's assigned feeder (O59). -/
def Obligations.GrantsGoInQueueOrder : Prop :=
  (∀ (f : FeederNo) (s : State),
      let x := s.feeder f
      let eligibleBay (b : BayNo) : Prop :=
        (s.bay b).silent = false ∧ (s.bay b).inFlight = false ∧ (s.bay b).waiting = [] ∧ s.locked b = false
      ((x.state ≠ .active ∨ x.capacity ≤ x.grants.length + x.selfCount ∨ ∀ y ∈ x.queue, ¬ eligibleBay y.1) →
          act f s = s)
        ∧ ∀ b t before after, x.state = .active → x.grants.length + x.selfCount < x.capacity →
            x.queue = before ++ (b, t) :: after → eligibleBay b → (∀ y ∈ before, ¬ eligibleBay y.1) →
            (s.bay b).held = [] →
            act f s =
              act f
                { updateBegun s b
                    { copied s b with
                      defrost :=
                        { (s.bay b).defrost with
                          state := .ordered, grantFeeder := some f,
                          timer := .running s.params.startWindow s.params.startWindow,
                          orderNumber := nextOrderNumber (s.bay b).defrost.orderNumber, lastKind := some .start,
                          pending := some ⟨.start, some f⟩ } }
                    false with
                  feeders :=
                    s.feeders.set f
                      { x with queue := x.queue.filter (fun y => y.1 != b), grants := x.grants ++ [b] }
                  sources := s.sources.orderPends b s.clock.time })
    ∧ (∀ (b : BayNo) (reports inOrder : List Report) (s : State),
      let place : Report → Nat
        | .directGrant _ => 0
        | .leaveQueue _ => 1
        | .release _ => 2
        | .selfLeave _ | .selfJoin _ => 3
        | .joinQueue _ _ => 4
        | .mayBeEligible _ => 5
      let feederOf : Report → FeederNo
        | .directGrant f | .leaveQueue f | .release f | .selfLeave f | .selfJoin f | .joinQueue f _ | .mayBeEligible f => f
      let changed (x : Feeder) : Report → Feeder
        | .directGrant _ => { x with queue := x.queue.filter (fun y => y.1 != b), grants := x.grants ++ [b] }
        | .leaveQueue _ => { x with queue := x.queue.filter fun y => y.1 != b }
        | .release _ => { x with grants := x.grants.filter fun y => y != b }
        | .selfLeave _ => { x with selfCount := x.selfCount - 1 }
        | .selfJoin _ => { x with selfCount := x.selfCount + 1 }
        | .joinQueue _ t => { x with queue := x.queue ++ [(b, t)] }
        | .mayBeEligible _ => x
      let applied (u : State) (r : Report) : State :=
        { u with feeders := u.feeders.set (feederOf r) (changed (u.feeder (feederOf r)) r) }
      inOrder.Pairwise (fun r r' => place r ≤ place r') →
      (∀ k, (inOrder.filter fun r => place r == k) = reports.filter fun r => place r == k) →
      feederReports b reports s =
        ([0, 1, 2, 3, 4, 5, 6, 7] : List FeederNo).foldl
          (fun u f => if (reports.any fun r => feederOf r == f) = true then act f u else u) (inOrder.foldl applied s))
    ∧ (∀ (b : BayNo) (f : FeederNo) (t : Time) (s : State),
      let x := s.feeder f
      let after (x : Feeder) : State := act f { s with feeders := s.feeders.set f x }
      feederReports b [] s = s
        ∧ feederReports b [.mayBeEligible f] s = act f s
        ∧ feederReports b [.leaveQueue f] s = after { x with queue := x.queue.filter fun y => y.1 != b }
        ∧ feederReports b [.release f] s = after { x with grants := x.grants.filter fun y => y != b }
        ∧ feederReports b [.selfLeave f] s = after { x with selfCount := x.selfCount - 1 }
        ∧ feederReports b [.selfJoin f] s = after { x with selfCount := x.selfCount + 1 }
        ∧ feederReports b [.joinQueue f t] s = after { x with queue := x.queue ++ [(b, t)] }
        ∧ feederReports b [.directGrant f] s =
          after { x with queue := x.queue.filter (fun y => y.1 != b), grants := x.grants ++ [b] }
        ∧ feederReports b [.leaveQueue f, .selfJoin f] s =
          after { x with queue := x.queue.filter (fun y => y.1 != b), selfCount := x.selfCount + 1 }
        ∧ feederReports b [.release f, .selfJoin f] s =
          after { x with grants := x.grants.filter (fun y => y != b), selfCount := x.selfCount + 1 }
        ∧ feederReports b [.release f, .joinQueue f t] s =
          after { x with grants := x.grants.filter (fun y => y != b), queue := x.queue ++ [(b, t)] }
        ∧ feederReports b [.mayBeEligible f, .leaveQueue f] s =
          after { x with queue := x.queue.filter fun y => y.1 != b }
        ∧ feederReports b [.mayBeEligible f, .joinQueue f t] s = after { x with queue := x.queue ++ [(b, t)] }
        ∧ feederReports b [.mayBeEligible f, .leaveQueue f, .selfJoin f] s =
          after { x with queue := x.queue.filter (fun y => y.1 != b), selfCount := x.selfCount + 1 }
        ∧ feederReports b [.mayBeEligible f, .selfJoin f] s = after { x with selfCount := x.selfCount + 1 }
        ∧ feederReports b [.mayBeEligible f, .selfLeave f] s = after { x with selfCount := x.selfCount - 1 }
        ∧ feederReports b [.mayBeEligible f, .release f] s = after { x with grants := x.grants.filter fun y => y != b }
        ∧ feederReports b [.mayBeEligible f, .directGrant f] s =
          after { x with queue := x.queue.filter (fun y => y.1 != b), grants := x.grants ++ [b] })

/-- O46. A FEEDER_OK line that falls trips its feeder (R115, R116, R118, R119): the grants are revoked in grant order, each
changing its bay's entry as the table of R115 gives, the order list following; the bays that were ORDERED go to the front of
the wait queue and the others to SELF; TRIPPED is raised, but in PASS no condition is; and a rewrite is asked for. Then each
revoked bay has its revocation update, in grant order: held while the bay is locked, waiting while an update is in flight, and
begun at once otherwise (R70). Nothing else of the part changes. A TRIPPED feeder only follows its line. A line that moves
while RESET_N is low moves alone, and one already low does not fall (R106; log 26). What it asks of the grant list holds in
every state a run reaches (O59). -/
def Obligations.FeederFallRevokesEveryGrant : Prop :=
  ∀ (f : FeederNo) (s : State),
    let low : Pins := { s.pins with feederOk := s.pins.feederOk.set f false }
    let x := s.feeder f
    let due := x.grants.filter fun b => (s.bay b).defrost.state == .ordered
    let selfs := x.grants.length - due.length
    let told : Sources := x.grants.foldl (fun q b => revokedOrders s.clock.time b (s.bay b).defrost q) s.sources
    let condition : Condition :=
      ⟨.tripped, s.clock.time, .counts due.length selfs, BitVec.ofNat 32 (x.selfCount + selfs)⟩
    let revoked : State :=
      { s with
        pins := low
        bays :=
          Vector.ofFn fun b =>
            if b ∈ x.grants then
              { (s.bay b).markStale .defrost with defrost := revokedRecord f (s.bay b).defrost }
            else s.bay b
        feeders :=
          s.feeders.set f
            ⟨.tripped, x.capacity, [], x.selfCount + selfs, (due.map fun b => (b, s.clock.time)) ++ x.queue, .stopped,
              s.clock.time⟩
        sources :=
          if s.decoder.mode = .pass then told else { told with feeders := told.feeders.set f (some condition) }
        status := { s.status with wanted := true } }
    let offered (u : State) (b : BayNo) : State :=
      if u.locked b then { u with bays := u.bays.set b { u.bay b with held := (u.bay b).held ++ [.revocation] } }
      else if (u.bay b).inFlight then
        { u with bays := u.bays.set b { u.bay b with waiting := (u.bay b).waiting ++ [.revocation] } }
      else updateBegun u b (copied u b) false
    (s.pins.resetN = false → exec (.feederOkFall f) s = .next { s with pins := low })
      ∧ (Live s → s.pins.feederOk[f] = false → exec (.feederOkFall f) s = .next s)
      ∧ (Live s → s.pins.feederOk[f] = true → x.state = .tripped →
          exec (.feederOkFall f) s = .next (settle { s with pins := low }))
      ∧ (Live s → s.pins.feederOk[f] = true → x.state ≠ .tripped → x.grants.Nodup →
          (∀ b ∈ x.grants, (s.bay b).defrost.state.granted = true) →
          exec (.feederOkFall f) s = .next (settle (x.grants.foldl offered revoked)))

/-- O47. A TRIPPED feeder whose line rises starts its restore timer, or in PASS or with restore delay 0 becomes ACTIVE at once;
the restore timer's expiry in RUN makes it ACTIVE; each return to ACTIVE raises RESTORED but in PASS, asks for a rewrite and
grants to waiting bays (R116-R119). A rise elsewhere only moves the line; while RESET_N is low it moves alone (log 26). Where
the restore timer has not run out in RESTORING in RUN, its expiry does not occur (log 5, log 11). -/
def Obligations.FeederRestores : Prop :=
  ∀ (f : FeederNo) (s : State),
    let high : Pins := { s.pins with feederOk := s.pins.feederOk.set f true }
    let x := s.feeder f
    let restored : Condition :=
      ⟨.restored, s.clock.time,
        .counts x.queue.length
          (match x.queue with | [] => 0 | (_, joined) :: _ => (s.clock.time - joined).toNat),
        s.clock.time - x.trippedSince⟩
    let active (p : Pins) : State :=
      act f
        { s with
          pins := p
          feeders := s.feeders.set f { x with state := .active, timer := .stopped }
          sources := if s.decoder.mode = .pass then s.sources else s.sources.raiseFeeder f restored
          status := { s.status with wanted := true } }
    (s.pins.resetN = false → exec (.feederOkRise f) s = .next { s with pins := high })
      ∧ (Live s → s.pins.feederOk[f] = true → exec (.feederOkRise f) s = .next s)
      ∧ (Live s → s.pins.feederOk[f] = false →
          (x.state ≠ .tripped → exec (.feederOkRise f) s = .next (settle { s with pins := high }))
            ∧ (x.state = .tripped → s.decoder.mode ≠ .pass → 0 < s.params.restoreDelay →
                exec (.feederOkRise f) s =
                  .next
                    (settle
                      { s with
                        pins := high
                        feeders :=
                          s.feeders.set f
                            { x with
                              state := .restoring, timer := .running s.params.restoreDelay s.params.restoreDelay }
                        status := { s.status with wanted := true } }))
            ∧ (x.state = .tripped → (s.decoder.mode = .pass ∨ s.params.restoreDelay = 0) →
                exec (.feederOkRise f) s = .next (settle (active high))))
      ∧ (∀ n, Live s → s.decoder.mode = .run → x.state = .restoring → x.timer = .running 0 n →
          exec (.restoreTimerExpiry f) s = .next (settle (active s.pins)))
      ∧ (Live s → (s.decoder.mode ≠ .run ∨ x.state ≠ .restoring ∨ ∀ n, x.timer ≠ .running 0 n) →
          exec (.restoreTimerExpiry f) s = .next s)

/-! ## Time -/

/-- O48. The reclaim timer of a READY entry expires: its periods pass, the entry leaves the table and delayed reads reclaimed
rises by one (R175). The hold timer expires: its periods pass and the lock is broken, released and counted (R182, R183). A
yard tick that falls within the periods occurs first, and the expiry follows as the rest of them pass (R193; log 9). A place
that holds no READY entry, or no lock, makes no expiry (log 5). -/
def Obligations.MicrosecondTimersExpire : Prop :=
  ∀ (place : Fin 4) (s : State), Live s → s.clock.base < 1000000 →
    (∀ k data left, s.access.table[place.val]? = some ⟨k, .ready data left⟩ →
        (s.clock.base + left < 1000000 →
            exec (.reclaimExpiry place) s =
              .next
                (settle
                  { afterPeriods left s with
                    access :=
                      { (afterPeriods left s).access with
                        table := (afterPeriods left s).access.table.filter fun e => e.key != k }
                    counters := { s.counters with readsReclaimed := satAdd s.counters.readsReclaimed 1 }
                    status :=
                      { s.status with
                        counterChanged :=
                          s.status.counterChanged
                            || { s.counters with readsReclaimed := satAdd s.counters.readsReclaimed 1 } != s.counters } }))
          ∧ (1000000 ≤ s.clock.base + left → ∀ u, exec .yardTick s = .next u →
            exec (.reclaimExpiry place) s = exec (.reclaimExpiry place) u))
      ∧ ((∀ k data left, s.access.table[place.val]? ≠ some ⟨k, .ready data left⟩) →
          exec (.reclaimExpiry place) s = .next s)
      ∧ (∀ l, s.access.lock = some l →
          (s.clock.base + l.left < 1000000 →
              exec .lockHoldExpiry s =
                .next
                  (settle
                    (releaseLock
                      { afterPeriods l.left s with
                        counters := { s.counters with locksBroken := satAdd s.counters.locksBroken 1 }
                        status :=
                          { s.status with
                            counterChanged :=
                              s.status.counterChanged
                                || { s.counters with locksBroken := satAdd s.counters.locksBroken 1 }
                                  != s.counters } })))
            ∧ (1000000 ≤ s.clock.base + l.left → ∀ u, exec .yardTick s = .next u →
              exec .lockHoldExpiry s = exec .lockHoldExpiry u))
      ∧ (s.access.lock = none → exec .lockHoldExpiry s = .next s)

/-- O49. The yard tick: the rest of the second base's count passes (log 9), yard time rises by one, in RUN every running
second-scale timer loses a second, and a counter change asks for a rewrite (R15, R193, R195). With no command waiting the step
is one REFCLK period (log 8): the second base counts it and the microsecond timers lose one, or the base completes its count
and the yard tick occurs. While RESET_N is low nothing changes. -/
def Obligations.YardTickCountsASecond : Prop :=
  (∀ s : State, Live s →
      let u : State := { afterPeriods (1000000 - s.clock.base) s with clock := ⟨s.clock.time + 1, 0⟩ }
      let ticked (t : Timer) : Timer := match t with | .running left n => .running (left - 1) n | t => t
      let v : State :=
        if s.decoder.mode = .run then
          { u with
            bays :=
              s.bays.map fun e =>
                { e with
                  silence := ticked e.silence, defrost := { e.defrost with timer := ticked e.defrost.timer },
                  door := { e.door with timer := ticked e.door.timer } }
            feeders := s.feeders.map fun x => { x with timer := ticked x.timer } }
        else u
      exec .yardTick s =
        .next
          (settle
            (if s.status.counterChanged then
              { v with status := { s.status with counterChanged := false, wanted := true } }
            else v)))
    ∧ (∀ s : State, s.pending = [] →
      (s.pins.resetN = false → step s = .next s)
        ∧ (Live s → s.clock.base + 1 < 1000000 →
            step s =
              .next
                (settle
                  { s with
                    clock := ⟨s.clock.time, s.clock.base + 1⟩
                    access :=
                      { s.access with
                        table :=
                          s.access.table.map fun e =>
                            match e.state with
                            | .ready data left => ⟨e.key, .ready data (left - 1)⟩
                            | .queued => e
                        lock := s.access.lock.map fun l => { l with left := l.left - 1 } } }))
        ∧ (Live s → 1000000 ≤ s.clock.base + 1 → step s = exec .yardTick s))

/-! ## Notices and the status block -/

/-- O50. Where R160 lets the Notice Writer claim, it takes the bay at the head of the order list, then the lowest feeder
source, then the lowest TAG source, then the first alert source the scan meets (R160, R161); the claim clears the source,
records it in the shadow of slot p and composes the entry in the layout of R154 (R85, R152, R156). The codes are the numbers
of R155, and a detail has one of the three forms of R154, a count stopping at 65535. -/
def Obligations.ClaimFollowsItsOrder : Prop :=
  ((Code.number .noStart = 1 ∧ Code.number .overrun = 2 ∧ Code.number .noStop = 3 ∧ Code.number .unordered = 4
        ∧ Code.number .echoMismatch = 5)
      ∧ (Code.number .low = 1 ∧ Code.number .critical = 2 ∧ Code.number .criticalNoPower = 3 ∧ Code.number .drop = 4
        ∧ Code.number .refuel = 5 ∧ Code.number .sensor = 6)
      ∧ (Code.number .openLong = 1 ∧ Code.number .inDefrost = 2 ∧ Code.number .closedAfterLong = 3)
      ∧ (Code.number .silent = 1 ∧ Code.number .resumed = 2 ∧ Code.number .tracked = 3 ∧ Code.number .lapsed = 4)
      ∧ (Code.number .tripped = 1 ∧ Code.number .restored = 2)
      ∧ (∀ (n : BitVec 8) (f : FeederNo), (Detail.order n (some f)).word = n ++ BitVec.ofNat 4 f.val ++ (0 : BitVec 20))
      ∧ (∀ n : BitVec 8, (Detail.order n none).word = n ++ (15 : BitVec 4) ++ (0 : BitVec 20))
      ∧ (∀ (a : RadioAddr) (q : Seq), (Detail.radio a q).word = a ++ q ++ (0 : BitVec 14))
      ∧ ∀ x y : Nat,
          ((Detail.counts x y).word.extractLsb' 16 16).toNat = (if x ≤ 65535 then x else 65535)
            ∧ ((Detail.counts x y).word.extractLsb' 0 16).toNat = if y ≤ 65535 then y else 65535)
    ∧ ∀ s : State, s.decoder.mode ≠ .pass → s.ring.inFlight = none → (s.ring.producer - s.ring.consumer).toNat ≠ 255 →
    let blocked (x : Source) : Prop := ∃ i : Fin 256, s.ring.shadow[i] = some x
    let p : Fin 256 := ⟨s.ring.producer.toNat, s.ring.producer.isLt⟩
    let ready (i : Fin 640) : Prop := s.sources.alerts[i] ≠ none ∧ ¬ blocked (.alert i)
    let claimed (x : Source) (scan : Fin 640) (words : List Word) : Prop :=
      (settle s).ring =
        { s.ring with shadow := s.ring.shadow.set p (some x), scan := scan, inFlight := some words }
    (∀ b t rest o, s.sources.orders = (b, t) :: rest → (s.bay b).defrost.pending = some o →
        claimed (.order b) s.ring.scan
            [(1 : BitVec 4) ++ (0 : BitVec 4) ++ (if o.kind = .start then (1 : BitVec 8) else 2) ++ BitVec.ofNat 8 b.val
                ++ (0 : BitVec 8),
              t,
              (s.bay b).defrost.orderNumber
                ++ (match o.feeder with | some f => BitVec.ofNat 4 f.val | none => (15 : BitVec 4)) ++ (0 : BitVec 20),
              ((s.bay b).radio.getD 0).setWidth 32]
          ∧ (settle s).sources = { s.sources with orders := (s.sources.orders.filter fun y => y.1 != b) }
          ∧ ((settle s).bay b).defrost.pending = none)
      ∧ (∀ (f : FeederNo) c, s.sources.orders = [] → s.sources.feeders[f] = some c → ¬ blocked (.feeder f) →
          (∀ g : FeederNo, g < f → s.sources.feeders[g] = none ∨ blocked (.feeder g)) →
          claimed (.feeder f) s.ring.scan
              [(3 : BitVec 4) ++ (0 : BitVec 4) ++ c.code.number ++ BitVec.ofNat 8 f.val ++ (0 : BitVec 8), c.time,
                c.detail.word, c.value]
            ∧ (settle s).sources = { s.sources with feeders := s.sources.feeders.set f none })
      ∧ (∀ (k : Fin 16) u, s.sources.orders = [] →
          (∀ g : FeederNo, s.sources.feeders[g] = none ∨ blocked (.feeder g)) → s.sources.tags[k] = true →
          ¬ blocked (.tag k) → (∀ j : Fin 16, j < k → s.sources.tags[j] = false ∨ blocked (.tag j)) →
          s.link.unknown[k] = some u →
          claimed (.tag k) s.ring.scan
              [(4 : BitVec 4) ++ (0 : BitVec 4) ++ (1 : BitVec 8) ++ BitVec.ofNat 8 k.val ++ (0 : BitVec 8),
                u.firstSeen, u.radio ++ u.firstSeq ++ (0 : BitVec 14), u.seen.setWidth 32]
            ∧ (settle s).sources = { s.sources with tags := s.sources.tags.set k false })
      ∧ (s.sources.orders = [] → (∀ g : FeederNo, s.sources.feeders[g] = none ∨ blocked (.feeder g)) →
          (∀ j : Fin 16, s.sources.tags[j] = false ∨ blocked (.tag j)) →
          (∀ (i : Fin 640) (d : Nat) c, ready i → s.sources.alerts[i] = some c → d < 640 →
              i.val = (s.ring.scan.val + 1 + d) % 640 →
              (∀ d' < d, ¬ ready (Fin.ofNat 640 (s.ring.scan.val + 1 + d'))) →
              claimed (.alert i) i
                  [(2 : BitVec 4) ++ BitVec.ofNat 4 (i.val % 4) ++ c.code.number ++ BitVec.ofNat 8 (i.val / 4)
                      ++ (0 : BitVec 8),
                    c.time, c.detail.word, c.value]
                ∧ (settle s).sources = { s.sources with alerts := s.sources.alerts.set i none })
            ∧ ((∀ i, ¬ ready i) → settle s = { s with status := (settle s).status }))

/-- O51. The end of a step touches the notice sources, the ring's claim, the Status Writer and a claimed pending order, and nothing
else; where R160 allows no claim it touches the Status Writer alone. What the Status Writer presents when no burst of it is
presented: within a rewrite a waiting result word goes ahead of the next burst; outside one a wanted rewrite begins first,
with the next generation, and then a result word (R195; log 14). While a burst is presented and no rewrite is in progress, a
wanted rewrite begins, and its burst 1 follows that burst (log 32). -/
def Obligations.StepEndClaimsAndPresents : Prop :=
  (∀ s : State,
      settle s =
          { s with
            bays := (settle s).bays, sources := (settle s).sources, ring := (settle s).ring,
            status := (settle s).status }
        ∧ (∀ b, (settle s).bay b = s.bay b
            ∨ (settle s).bay b = { s.bay b with defrost := { (s.bay b).defrost with pending := none } })
        ∧ (settle s).ring.producer = s.ring.producer ∧ (settle s).ring.consumer = s.ring.consumer
        ∧ (s.decoder.mode = .pass ∨ s.ring.inFlight ≠ none ∨ (s.ring.producer - s.ring.consumer).toNat = 255 →
            settle s = { s with status := (settle s).status }))
    ∧ (∀ s : State, noticeSettle s = s →
      (s.status.presented ≠ none → s.status.rewrite = none → s.status.wanted = true →
          settle s =
            { s with
              status :=
                { s.status with wanted := false, generation := s.status.generation + 1, rewrite := some 1 } })
        ∧ (s.status.presented ≠ none → (s.status.rewrite ≠ none ∨ s.status.wanted = false) → settle s = s)
        ∧ (s.status.presented = none →
            (∀ n, s.status.rewrite = some n → s.status.resultPending = true →
                settle s =
                  { s with
                    status :=
                      { s.status with resultPending := false, presented := some (.result (resultWord s.mailbox)) } })
              ∧ (∀ n, s.status.rewrite = some n → s.status.resultPending = false →
                settle s =
                  { s with
                    status :=
                      { s.status with
                        presented := some (.block n (statusBurst s n)),
                        causeShown :=
                          if n = 1 then
                            s.mailbox.state == .done || s.ring.producer != s.ring.consumer
                              || s.feeders.any fun f => f.state != .active
                          else s.status.causeShown } })
              ∧ (s.status.rewrite = none → s.status.wanted = true →
                ∃ ws, settle s =
                    { s with
                      status :=
                        { s.status with
                          wanted := false, generation := s.status.generation + 1, rewrite := some 1,
                          presented := some (.block 1 ws),
                          causeShown :=
                            s.mailbox.state == .done || s.ring.producer != s.ring.consumer
                              || s.feeders.any fun f => f.state != .active } }
                  ∧ ws = statusBurst { s with status := { s.status with generation := s.status.generation + 1 } } 1)
              ∧ (s.status.rewrite = none → s.status.wanted = false → s.status.resultPending = true →
                settle s =
                  { s with
                    status :=
                      { s.status with resultPending := false, presented := some (.result (resultWord s.mailbox)) } })
              ∧ (s.status.rewrite = none → s.status.wanted = false → s.status.resultPending = false → settle s = s)))

/-- O52. The twenty words of the status block hold the fields of R196 at their bits, and 0 in the bits R196 gives none. -/
def Obligations.StatusBlockHoldsItsLayout : Prop :=
  ∀ (s : State) (ws : List Word), ws = statusBurst s 1 ++ statusBurst s 2 ++ statusBurst s 3 →
    let field (n lo width : Nat) : Nat := ((ws[n]?.getD 0).extractLsb' lo width).toNat
    ws.length = 20
      ∧ field 0 16 16 = s.status.generation.toNat ∧ field 19 16 16 = s.status.generation.toNat
      ∧ field 0 14 2 = (match s.decoder.mode with | .pass => 0 | .run => 1 | .halted => 2)
      ∧ field 0 12 2 = (match s.mailbox.state with | .idle => 0 | .busy => 1 | .done => 2)
      ∧ field 0 8 4 =
        (match s.mailbox.lastResult with
          | none => 0
          | some .ok => 1
          | some .badArg => 2
          | some .badState => 3
          | some .notFound => 4)
      ∧ field 0 0 8 = s.mailbox.lastCode.toNat
      ∧ (s.inbox.length ≤ 16 → field 1 27 5 = s.inbox.length)
      ∧ (s.access.table.length ≤ 4 → field 1 24 3 = s.access.table.length)
      ∧ (s.access.lock = none → field 1 23 1 = 0 ∧ field 1 20 3 = 0 ∧ field 1 12 8 = 0)
      ∧ (∀ l, s.access.lock = some l → field 1 23 1 = 1 ∧ field 1 20 3 = l.holder.val ∧ field 1 12 8 = l.bay.val)
      ∧ field 1 0 12 = 0
      ∧ field 2 0 32 = s.clock.time.toNat
      ∧ field 3 24 8 = s.ring.producer.toNat ∧ field 3 16 8 = s.ring.consumer.toNat
      ∧ field 3 15 1 = (if s.mailbox.state = .done then 1 else 0)
      ∧ field 3 14 1 = (if s.ring.producer = s.ring.consumer then 0 else 1)
      ∧ field 3 13 1 = (if ∀ f, (s.feeder f).state = .active then 0 else 1)
      ∧ field 3 11 2 =
        (if s.mailbox.state = .done then 1
          else if s.ring.producer ≠ s.ring.consumer then 2
          else if ∀ f, (s.feeder f).state = .active then 0 else 3)
      ∧ field 3 0 11 = 0
      ∧ (∀ f : FeederNo,
          field (4 + f.val) 30 2 = (match (s.feeder f).state with | .active => 0 | .tripped => 1 | .restoring => 2)
            ∧ ((s.feeder f).capacity ≤ 8 → field (4 + f.val) 26 4 = (s.feeder f).capacity)
            ∧ ((s.feeder f).grants.length ≤ 8 → field (4 + f.val) 22 4 = (s.feeder f).grants.length)
            ∧ ((s.feeder f).selfCount ≤ 160 → field (4 + f.val) 14 8 = (s.feeder f).selfCount)
            ∧ ((s.feeder f).queue.length ≤ 160 → field (4 + f.val) 6 8 = (s.feeder f).queue.length)
            ∧ field (4 + f.val) 0 6 = 0)
      ∧ field 12 16 16 = s.counters.framesTaken.toNat ∧ field 12 0 16 = s.counters.badCheck.toNat
      ∧ field 13 16 16 = s.counters.duplicates.toNat ∧ field 13 0 16 = s.counters.gaps.toNat
      ∧ field 14 16 16 = s.counters.outOfOrder.toNat ∧ field 14 0 16 = s.counters.superseded.toNat
      ∧ field 15 16 16 = s.counters.unmappedFrames.toNat ∧ field 15 0 16 = s.counters.unknownOverflow.toNat
      ∧ field 16 16 16 = s.counters.retriesIssued.toNat ∧ field 16 0 16 = s.counters.refusalsIssued.toNat
      ∧ field 17 16 16 = s.counters.readsReclaimed.toNat ∧ field 17 0 16 = s.counters.locksBroken.toNat
      ∧ (s.link.tagMap.length ≤ 160 → field 18 24 8 = s.link.tagMap.length)
      ∧ field 18 19 5 = s.link.unknown.toList.countP Option.isSome
      ∧ field 18 17 2 = s.decoder.memSize.toNat
      ∧ field 18 0 17 = 0 ∧ field 19 0 16 = 0

/-! ## Invariants of every step -/

/-- O53. The states right after reset, and after a release of RESET_N from any state, meet the invariants below; the canonical
form of record memory, which a release does not touch (R18), holds after one as it held before (log 30). -/
def Obligations.ResetMeetsTheInvariants : Prop :=
  (MemoryCanonical State.reset ∧ WindowsValid State.reset ∧ TablesBounded State.reset ∧ PassQuiet State.reset
      ∧ ShadowUnique State.reset ∧ FeederLaw State.reset ∧ BurstsFollowUpdates State.reset ∧ EventsInOrder State.reset
      ∧ TablesAgree State.reset)
    ∧ ∀ (s t : State) (m : BitVec 2), s.pins.resetN = false → exec (.resetNRelease m) s = .next t →
        (MemoryCanonical s → MemoryCanonical t) ∧ WindowsValid t ∧ TablesBounded t ∧ PassQuiet t ∧ ShadowUnique t
          ∧ FeederLaw t ∧ BurstsFollowUpdates t ∧ EventsInOrder t ∧ TablesAgree t

/-- O54. Every step keeps the canonical form of record memory (log 30). -/
def Obligations.MemoryStaysCanonical : Prop :=
  ∀ s t : State, MemoryCanonical s → step s = .next t → MemoryCanonical t

/-- O55. Every step keeps R178: no update of a locked bay is in flight; and events wait only behind an update or a lock (R67,
R70, R71). Every step keeps the record writer's queue in step with the updates in flight (R66). -/
def Obligations.LockUpdatesAndBurstsStayInStep : Prop :=
  (∀ s t : State, EventsInOrder s → step s = .next t → EventsInOrder t)
    ∧ ∀ s t : State, BurstsFollowUpdates s → EventsInOrder s → step s = .next t → BurstsFollowUpdates t

/-- O56. Every step keeps R7, with all three windows on in RUN and HALTED. -/
def Obligations.WindowsStayValid : Prop :=
  ∀ s t : State, WindowsValid s → step s = .next t → WindowsValid t

/-- O57. Every step keeps the bounds of the Inbox Queue, the Delayed Read Table and the second base, and in PASS nothing is
queued, locked, delayed or fetched (R15, R22, R172, R193); and it keeps R105 and R108: a feeder that is not ACTIVE has an
empty grant list, and no list exceeds 8. -/
def Obligations.TablesStayBounded : Prop :=
  (∀ s t : State, TablesBounded s → PassQuiet s → step s = .next t → TablesBounded t ∧ PassQuiet t)
    ∧ ∀ s t : State, FeederLaw s → step s = .next t → FeederLaw t

/-- O58. Every step keeps R159: no alert, feeder or TAG source has two slots of the ring shadow; and R158: the order list holds,
once each, the bays with an order pending. -/
def Obligations.NoticeSourcesStayInStep : Prop :=
  (∀ s t : State, ShadowUnique s → step s = .next t → ShadowUnique t)
    ∧ ∀ s t : State, TablesAgree s → EventsInOrder s → step s = .next t → OrdersAgree t

/-- O59. Every step keeps the feeders' lists in step with the bays' defrost states: grant lists (R108), wait queues (R107) and
self-started counts (R109), and every grant is of the bay's assigned feeder. -/
def Obligations.FeederListsStayInStep : Prop :=
  ∀ s t : State, TablesAgree s → EventsInOrder s → step s = .next t → FeedersAgree t

/-- O60. Every step keeps a bay OCCUPIED exactly while one Tag Map entry names it (R36, R57), and one command run at a time, from
its taking to its result word (R187-R190), which waits where it says it waits (R69, R71). -/
def Obligations.OccupancyAndCommandsStayInStep : Prop :=
  ∀ s t : State, TablesAgree s → EventsInOrder s → step s = .next t → OccupancyAgrees t ∧ CommandLaw t
end

