-- ==== Sys2Proof/Laws/State.lean ====
section
/-! SUPPORT. Record updates read back, field by field, so that no proof unfolds one. -/

namespace Sys2Proof.Machine

@[simp] theorem setBay_pending (s : State) (b : BayNo) (e : BayEntry) : (s.setBay b e).pending = s.pending := rfl
@[simp] theorem setBay_pins (s : State) (b : BayNo) (e : BayEntry) : (s.setBay b e).pins = s.pins := rfl
@[simp] theorem setBay_front (s : State) (b : BayNo) (e : BayEntry) : (s.setBay b e).front = s.front := rfl
@[simp] theorem setBay_decoder (s : State) (b : BayNo) (e : BayEntry) : (s.setBay b e).decoder = s.decoder := rfl
@[simp] theorem setBay_mem (s : State) (b : BayNo) (e : BayEntry) : (s.setBay b e).mem = s.mem := rfl
@[simp] theorem setBay_arbiter (s : State) (b : BayNo) (e : BayEntry) : (s.setBay b e).arbiter = s.arbiter := rfl
@[simp] theorem setBay_counters (s : State) (b : BayNo) (e : BayEntry) : (s.setBay b e).counters = s.counters := rfl
@[simp] theorem setBay_inbox (s : State) (b : BayNo) (e : BayEntry) : (s.setBay b e).inbox = s.inbox := rfl
@[simp] theorem setBay_link (s : State) (b : BayNo) (e : BayEntry) : (s.setBay b e).link = s.link := rfl
@[simp] theorem setBay_bursts (s : State) (b : BayNo) (e : BayEntry) : (s.setBay b e).bursts = s.bursts := rfl
@[simp] theorem setBay_feeders (s : State) (b : BayNo) (e : BayEntry) : (s.setBay b e).feeders = s.feeders := rfl
@[simp] theorem setBay_sources (s : State) (b : BayNo) (e : BayEntry) : (s.setBay b e).sources = s.sources := rfl
@[simp] theorem setBay_ring (s : State) (b : BayNo) (e : BayEntry) : (s.setBay b e).ring = s.ring := rfl
@[simp] theorem setBay_access (s : State) (b : BayNo) (e : BayEntry) : (s.setBay b e).access = s.access := rfl
@[simp] theorem setBay_mailbox (s : State) (b : BayNo) (e : BayEntry) : (s.setBay b e).mailbox = s.mailbox := rfl
@[simp] theorem setBay_params (s : State) (b : BayNo) (e : BayEntry) : (s.setBay b e).params = s.params := rfl
@[simp] theorem setBay_clock (s : State) (b : BayNo) (e : BayEntry) : (s.setBay b e).clock = s.clock := rfl
@[simp] theorem setBay_status (s : State) (b : BayNo) (e : BayEntry) : (s.setBay b e).status = s.status := rfl
@[simp] theorem setBay_freeUsed (s : State) (b : BayNo) (e : BayEntry) : (s.setBay b e).freeUsed = s.freeUsed := rfl

@[simp] theorem setFeeder_pending (s : State) (f : FeederNo) (x : Feeder) : (s.setFeeder f x).pending = s.pending := rfl
@[simp] theorem setFeeder_pins (s : State) (f : FeederNo) (x : Feeder) : (s.setFeeder f x).pins = s.pins := rfl
@[simp] theorem setFeeder_front (s : State) (f : FeederNo) (x : Feeder) : (s.setFeeder f x).front = s.front := rfl
@[simp] theorem setFeeder_decoder (s : State) (f : FeederNo) (x : Feeder) : (s.setFeeder f x).decoder = s.decoder := rfl
@[simp] theorem setFeeder_mem (s : State) (f : FeederNo) (x : Feeder) : (s.setFeeder f x).mem = s.mem := rfl
@[simp] theorem setFeeder_arbiter (s : State) (f : FeederNo) (x : Feeder) : (s.setFeeder f x).arbiter = s.arbiter := rfl
@[simp] theorem setFeeder_counters (s : State) (f : FeederNo) (x : Feeder) : (s.setFeeder f x).counters = s.counters := rfl
@[simp] theorem setFeeder_inbox (s : State) (f : FeederNo) (x : Feeder) : (s.setFeeder f x).inbox = s.inbox := rfl
@[simp] theorem setFeeder_link (s : State) (f : FeederNo) (x : Feeder) : (s.setFeeder f x).link = s.link := rfl
@[simp] theorem setFeeder_bays (s : State) (f : FeederNo) (x : Feeder) : (s.setFeeder f x).bays = s.bays := rfl
@[simp] theorem setFeeder_bursts (s : State) (f : FeederNo) (x : Feeder) : (s.setFeeder f x).bursts = s.bursts := rfl
@[simp] theorem setFeeder_sources (s : State) (f : FeederNo) (x : Feeder) : (s.setFeeder f x).sources = s.sources := rfl
@[simp] theorem setFeeder_ring (s : State) (f : FeederNo) (x : Feeder) : (s.setFeeder f x).ring = s.ring := rfl
@[simp] theorem setFeeder_access (s : State) (f : FeederNo) (x : Feeder) : (s.setFeeder f x).access = s.access := rfl
@[simp] theorem setFeeder_mailbox (s : State) (f : FeederNo) (x : Feeder) : (s.setFeeder f x).mailbox = s.mailbox := rfl
@[simp] theorem setFeeder_params (s : State) (f : FeederNo) (x : Feeder) : (s.setFeeder f x).params = s.params := rfl
@[simp] theorem setFeeder_clock (s : State) (f : FeederNo) (x : Feeder) : (s.setFeeder f x).clock = s.clock := rfl
@[simp] theorem setFeeder_status (s : State) (f : FeederNo) (x : Feeder) : (s.setFeeder f x).status = s.status := rfl
@[simp] theorem setFeeder_freeUsed (s : State) (f : FeederNo) (x : Feeder) : (s.setFeeder f x).freeUsed = s.freeUsed := rfl

@[simp] theorem wantRewrite_pending (s : State) : s.wantRewrite.pending = s.pending := rfl
@[simp] theorem wantRewrite_pins (s : State) : s.wantRewrite.pins = s.pins := rfl
@[simp] theorem wantRewrite_front (s : State) : s.wantRewrite.front = s.front := rfl
@[simp] theorem wantRewrite_decoder (s : State) : s.wantRewrite.decoder = s.decoder := rfl
@[simp] theorem wantRewrite_mem (s : State) : s.wantRewrite.mem = s.mem := rfl
@[simp] theorem wantRewrite_arbiter (s : State) : s.wantRewrite.arbiter = s.arbiter := rfl
@[simp] theorem wantRewrite_counters (s : State) : s.wantRewrite.counters = s.counters := rfl
@[simp] theorem wantRewrite_inbox (s : State) : s.wantRewrite.inbox = s.inbox := rfl
@[simp] theorem wantRewrite_link (s : State) : s.wantRewrite.link = s.link := rfl
@[simp] theorem wantRewrite_bays (s : State) : s.wantRewrite.bays = s.bays := rfl
@[simp] theorem wantRewrite_bursts (s : State) : s.wantRewrite.bursts = s.bursts := rfl
@[simp] theorem wantRewrite_feeders (s : State) : s.wantRewrite.feeders = s.feeders := rfl
@[simp] theorem wantRewrite_sources (s : State) : s.wantRewrite.sources = s.sources := rfl
@[simp] theorem wantRewrite_ring (s : State) : s.wantRewrite.ring = s.ring := rfl
@[simp] theorem wantRewrite_access (s : State) : s.wantRewrite.access = s.access := rfl
@[simp] theorem wantRewrite_mailbox (s : State) : s.wantRewrite.mailbox = s.mailbox := rfl
@[simp] theorem wantRewrite_params (s : State) : s.wantRewrite.params = s.params := rfl
@[simp] theorem wantRewrite_clock (s : State) : s.wantRewrite.clock = s.clock := rfl
@[simp] theorem wantRewrite_freeUsed (s : State) : s.wantRewrite.freeUsed = s.freeUsed := rfl

@[simp] theorem setProgress_pending (s : State) (p : Progress) : (s.setProgress p).pending = s.pending := rfl
@[simp] theorem setProgress_pins (s : State) (p : Progress) : (s.setProgress p).pins = s.pins := rfl
@[simp] theorem setProgress_front (s : State) (p : Progress) : (s.setProgress p).front = s.front := rfl
@[simp] theorem setProgress_decoder (s : State) (p : Progress) : (s.setProgress p).decoder = s.decoder := rfl
@[simp] theorem setProgress_mem (s : State) (p : Progress) : (s.setProgress p).mem = s.mem := rfl
@[simp] theorem setProgress_arbiter (s : State) (p : Progress) : (s.setProgress p).arbiter = s.arbiter := rfl
@[simp] theorem setProgress_counters (s : State) (p : Progress) : (s.setProgress p).counters = s.counters := rfl
@[simp] theorem setProgress_inbox (s : State) (p : Progress) : (s.setProgress p).inbox = s.inbox := rfl
@[simp] theorem setProgress_link (s : State) (p : Progress) : (s.setProgress p).link = s.link := rfl
@[simp] theorem setProgress_bays (s : State) (p : Progress) : (s.setProgress p).bays = s.bays := rfl
@[simp] theorem setProgress_bursts (s : State) (p : Progress) : (s.setProgress p).bursts = s.bursts := rfl
@[simp] theorem setProgress_feeders (s : State) (p : Progress) : (s.setProgress p).feeders = s.feeders := rfl
@[simp] theorem setProgress_sources (s : State) (p : Progress) : (s.setProgress p).sources = s.sources := rfl
@[simp] theorem setProgress_ring (s : State) (p : Progress) : (s.setProgress p).ring = s.ring := rfl
@[simp] theorem setProgress_access (s : State) (p : Progress) : (s.setProgress p).access = s.access := rfl
@[simp] theorem setProgress_params (s : State) (p : Progress) : (s.setProgress p).params = s.params := rfl
@[simp] theorem setProgress_clock (s : State) (p : Progress) : (s.setProgress p).clock = s.clock := rfl
@[simp] theorem setProgress_status (s : State) (p : Progress) : (s.setProgress p).status = s.status := rfl
@[simp] theorem setProgress_freeUsed (s : State) (p : Progress) : (s.setProgress p).freeUsed = s.freeUsed := rfl

@[simp] theorem count_pending (s : State) (c : Counters) : (s.count c).pending = s.pending := rfl
@[simp] theorem count_pins (s : State) (c : Counters) : (s.count c).pins = s.pins := rfl
@[simp] theorem count_front (s : State) (c : Counters) : (s.count c).front = s.front := rfl
@[simp] theorem count_decoder (s : State) (c : Counters) : (s.count c).decoder = s.decoder := rfl
@[simp] theorem count_mem (s : State) (c : Counters) : (s.count c).mem = s.mem := rfl
@[simp] theorem count_arbiter (s : State) (c : Counters) : (s.count c).arbiter = s.arbiter := rfl
@[simp] theorem count_inbox (s : State) (c : Counters) : (s.count c).inbox = s.inbox := rfl
@[simp] theorem count_link (s : State) (c : Counters) : (s.count c).link = s.link := rfl
@[simp] theorem count_bays (s : State) (c : Counters) : (s.count c).bays = s.bays := rfl
@[simp] theorem count_bursts (s : State) (c : Counters) : (s.count c).bursts = s.bursts := rfl
@[simp] theorem count_feeders (s : State) (c : Counters) : (s.count c).feeders = s.feeders := rfl
@[simp] theorem count_sources (s : State) (c : Counters) : (s.count c).sources = s.sources := rfl
@[simp] theorem count_ring (s : State) (c : Counters) : (s.count c).ring = s.ring := rfl
@[simp] theorem count_access (s : State) (c : Counters) : (s.count c).access = s.access := rfl
@[simp] theorem count_mailbox (s : State) (c : Counters) : (s.count c).mailbox = s.mailbox := rfl
@[simp] theorem count_params (s : State) (c : Counters) : (s.count c).params = s.params := rfl
@[simp] theorem count_clock (s : State) (c : Counters) : (s.count c).clock = s.clock := rfl
@[simp] theorem count_freeUsed (s : State) (c : Counters) : (s.count c).freeUsed = s.freeUsed := rfl

@[simp] theorem complete_pending (s : State) (i : Initiator) (c : Completion) : (s.complete i c).pending = s.pending := rfl
@[simp] theorem complete_pins (s : State) (i : Initiator) (c : Completion) : (s.complete i c).pins = s.pins := rfl
@[simp] theorem complete_decoder (s : State) (i : Initiator) (c : Completion) : (s.complete i c).decoder = s.decoder := rfl
@[simp] theorem complete_mem (s : State) (i : Initiator) (c : Completion) : (s.complete i c).mem = s.mem := rfl
@[simp] theorem complete_arbiter (s : State) (i : Initiator) (c : Completion) : (s.complete i c).arbiter = s.arbiter := rfl
@[simp] theorem complete_inbox (s : State) (i : Initiator) (c : Completion) : (s.complete i c).inbox = s.inbox := rfl
@[simp] theorem complete_link (s : State) (i : Initiator) (c : Completion) : (s.complete i c).link = s.link := rfl
@[simp] theorem complete_bays (s : State) (i : Initiator) (c : Completion) : (s.complete i c).bays = s.bays := rfl
@[simp] theorem complete_bursts (s : State) (i : Initiator) (c : Completion) : (s.complete i c).bursts = s.bursts := rfl
@[simp] theorem complete_feeders (s : State) (i : Initiator) (c : Completion) : (s.complete i c).feeders = s.feeders := rfl
@[simp] theorem complete_sources (s : State) (i : Initiator) (c : Completion) : (s.complete i c).sources = s.sources := rfl
@[simp] theorem complete_ring (s : State) (i : Initiator) (c : Completion) : (s.complete i c).ring = s.ring := rfl
@[simp] theorem complete_access (s : State) (i : Initiator) (c : Completion) : (s.complete i c).access = s.access := rfl
@[simp] theorem complete_mailbox (s : State) (i : Initiator) (c : Completion) : (s.complete i c).mailbox = s.mailbox := rfl
@[simp] theorem complete_params (s : State) (i : Initiator) (c : Completion) : (s.complete i c).params = s.params := rfl
@[simp] theorem complete_clock (s : State) (i : Initiator) (c : Completion) : (s.complete i c).clock = s.clock := rfl
@[simp] theorem complete_freeUsed (s : State) (i : Initiator) (c : Completion) : (s.complete i c).freeUsed = s.freeUsed := rfl

@[simp] theorem pass_pending (s : State) (r : Request) (p : Path) : (s.pass r p).pending = s.pending := rfl
@[simp] theorem pass_pins (s : State) (r : Request) (p : Path) : (s.pass r p).pins = s.pins := rfl
@[simp] theorem pass_decoder (s : State) (r : Request) (p : Path) : (s.pass r p).decoder = s.decoder := rfl
@[simp] theorem pass_mem (s : State) (r : Request) (p : Path) : (s.pass r p).mem = s.mem := rfl
@[simp] theorem pass_arbiter (s : State) (r : Request) (p : Path) : (s.pass r p).arbiter = s.arbiter := rfl
@[simp] theorem pass_counters (s : State) (r : Request) (p : Path) : (s.pass r p).counters = s.counters := rfl
@[simp] theorem pass_inbox (s : State) (r : Request) (p : Path) : (s.pass r p).inbox = s.inbox := rfl
@[simp] theorem pass_link (s : State) (r : Request) (p : Path) : (s.pass r p).link = s.link := rfl
@[simp] theorem pass_bays (s : State) (r : Request) (p : Path) : (s.pass r p).bays = s.bays := rfl
@[simp] theorem pass_bursts (s : State) (r : Request) (p : Path) : (s.pass r p).bursts = s.bursts := rfl
@[simp] theorem pass_feeders (s : State) (r : Request) (p : Path) : (s.pass r p).feeders = s.feeders := rfl
@[simp] theorem pass_sources (s : State) (r : Request) (p : Path) : (s.pass r p).sources = s.sources := rfl
@[simp] theorem pass_ring (s : State) (r : Request) (p : Path) : (s.pass r p).ring = s.ring := rfl
@[simp] theorem pass_access (s : State) (r : Request) (p : Path) : (s.pass r p).access = s.access := rfl
@[simp] theorem pass_mailbox (s : State) (r : Request) (p : Path) : (s.pass r p).mailbox = s.mailbox := rfl
@[simp] theorem pass_params (s : State) (r : Request) (p : Path) : (s.pass r p).params = s.params := rfl
@[simp] theorem pass_clock (s : State) (r : Request) (p : Path) : (s.pass r p).clock = s.clock := rfl
@[simp] theorem pass_status (s : State) (r : Request) (p : Path) : (s.pass r p).status = s.status := rfl
@[simp] theorem pass_freeUsed (s : State) (r : Request) (p : Path) : (s.pass r p).freeUsed = s.freeUsed := rfl

@[simp] theorem presentBlock_pending (s : State) (n : Nat) : (presentBlock s n).pending = s.pending := rfl
@[simp] theorem presentBlock_pins (s : State) (n : Nat) : (presentBlock s n).pins = s.pins := rfl
@[simp] theorem presentBlock_front (s : State) (n : Nat) : (presentBlock s n).front = s.front := rfl
@[simp] theorem presentBlock_decoder (s : State) (n : Nat) : (presentBlock s n).decoder = s.decoder := rfl
@[simp] theorem presentBlock_mem (s : State) (n : Nat) : (presentBlock s n).mem = s.mem := rfl
@[simp] theorem presentBlock_arbiter (s : State) (n : Nat) : (presentBlock s n).arbiter = s.arbiter := rfl
@[simp] theorem presentBlock_counters (s : State) (n : Nat) : (presentBlock s n).counters = s.counters := rfl
@[simp] theorem presentBlock_inbox (s : State) (n : Nat) : (presentBlock s n).inbox = s.inbox := rfl
@[simp] theorem presentBlock_link (s : State) (n : Nat) : (presentBlock s n).link = s.link := rfl
@[simp] theorem presentBlock_bays (s : State) (n : Nat) : (presentBlock s n).bays = s.bays := rfl
@[simp] theorem presentBlock_bursts (s : State) (n : Nat) : (presentBlock s n).bursts = s.bursts := rfl
@[simp] theorem presentBlock_feeders (s : State) (n : Nat) : (presentBlock s n).feeders = s.feeders := rfl
@[simp] theorem presentBlock_sources (s : State) (n : Nat) : (presentBlock s n).sources = s.sources := rfl
@[simp] theorem presentBlock_ring (s : State) (n : Nat) : (presentBlock s n).ring = s.ring := rfl
@[simp] theorem presentBlock_access (s : State) (n : Nat) : (presentBlock s n).access = s.access := rfl
@[simp] theorem presentBlock_mailbox (s : State) (n : Nat) : (presentBlock s n).mailbox = s.mailbox := rfl
@[simp] theorem presentBlock_params (s : State) (n : Nat) : (presentBlock s n).params = s.params := rfl
@[simp] theorem presentBlock_clock (s : State) (n : Nat) : (presentBlock s n).clock = s.clock := rfl
@[simp] theorem presentBlock_freeUsed (s : State) (n : Nat) : (presentBlock s n).freeUsed = s.freeUsed := rfl

@[simp] theorem presentResult_pending (s : State) : (presentResult s).pending = s.pending := rfl
@[simp] theorem presentResult_pins (s : State) : (presentResult s).pins = s.pins := rfl
@[simp] theorem presentResult_front (s : State) : (presentResult s).front = s.front := rfl
@[simp] theorem presentResult_decoder (s : State) : (presentResult s).decoder = s.decoder := rfl
@[simp] theorem presentResult_mem (s : State) : (presentResult s).mem = s.mem := rfl
@[simp] theorem presentResult_arbiter (s : State) : (presentResult s).arbiter = s.arbiter := rfl
@[simp] theorem presentResult_counters (s : State) : (presentResult s).counters = s.counters := rfl
@[simp] theorem presentResult_inbox (s : State) : (presentResult s).inbox = s.inbox := rfl
@[simp] theorem presentResult_link (s : State) : (presentResult s).link = s.link := rfl
@[simp] theorem presentResult_bays (s : State) : (presentResult s).bays = s.bays := rfl
@[simp] theorem presentResult_bursts (s : State) : (presentResult s).bursts = s.bursts := rfl
@[simp] theorem presentResult_feeders (s : State) : (presentResult s).feeders = s.feeders := rfl
@[simp] theorem presentResult_sources (s : State) : (presentResult s).sources = s.sources := rfl
@[simp] theorem presentResult_ring (s : State) : (presentResult s).ring = s.ring := rfl
@[simp] theorem presentResult_access (s : State) : (presentResult s).access = s.access := rfl
@[simp] theorem presentResult_mailbox (s : State) : (presentResult s).mailbox = s.mailbox := rfl
@[simp] theorem presentResult_params (s : State) : (presentResult s).params = s.params := rfl
@[simp] theorem presentResult_clock (s : State) : (presentResult s).clock = s.clock := rfl
@[simp] theorem presentResult_freeUsed (s : State) : (presentResult s).freeUsed = s.freeUsed := rfl

@[simp] theorem count_counters (s : State) (c : Counters) : (s.count c).counters = c := rfl

@[simp] theorem complete_counters (s : State) (i : Initiator) (c : Completion) :
    (s.complete i c).counters = s.counters.afterCompletion c := rfl

@[simp] theorem complete_front (s : State) (i : Initiator) (c : Completion) :
    (s.complete i c).front = ⟨none, some ⟨i, c⟩⟩ := rfl

@[simp] theorem pass_front (s : State) (r : Request) (p : Path) : (s.pass r p).front = ⟨some ⟨r, p⟩, none⟩ := rfl

@[simp] theorem setProgress_mailbox (s : State) (p : Progress) :
    (s.setProgress p).mailbox = { s.mailbox with progress := p } := rfl

@[simp] theorem wantRewrite_status (s : State) : s.wantRewrite.status = { s.status with wanted := true } := rfl

/-- Reading the entry that was put, and every other one. -/
theorem setBay_bay (s : State) (b x : BayNo) (e : BayEntry) : (s.setBay b e).bay x = if b = x then e else s.bay x := by
  simp [State.bay, State.setBay, Vector.getElem_set, Fin.ext_iff]

@[simp] theorem setBay_bay_self (s : State) (b : BayNo) (e : BayEntry) : (s.setBay b e).bay b = e := by
  simp [setBay_bay]

/-- Reading the feeder that was put, and every other one. -/
theorem setFeeder_feeder (s : State) (f x : FeederNo) (e : Feeder) :
    (s.setFeeder f e).feeder x = if f = x then e else s.feeder x := by
  simp [State.feeder, State.setFeeder, Vector.getElem_set, Fin.ext_iff]

@[simp] theorem setFeeder_feeder_self (s : State) (f : FeederNo) (e : Feeder) : (s.setFeeder f e).feeder f = e := by
  simp [setFeeder_feeder]

@[simp] theorem setFeeder_bay (s : State) (f : FeederNo) (x : Feeder) (b : BayNo) :
    (s.setFeeder f x).bay b = s.bay b := rfl

@[simp] theorem setBay_feeder (s : State) (b : BayNo) (e : BayEntry) (f : FeederNo) :
    (s.setBay b e).feeder f = s.feeder f := rfl

/-- A finished command changes the mailbox and the Status Writer, and nothing else. -/
theorem finish_eq (s : State) (r : Result) :
    s.finish r = { s with mailbox := (s.finish r).mailbox, status := (s.finish r).status } := by
  unfold State.finish; split <;> rfl

end Sys2Proof.Machine
end

