-- ==== Sys2Proof/Laws/Engine.lean ====
section
/-! SUPPORT. What the Check Engine and the Feeder Arbiter can do in one step, said once: every operation of Update.lean is
a run of `Move`s. A frame or an invariant is proved over the moves and holds of them all. -/

namespace Sys2Proof.Machine

/-- The elementary changes. An update begins only at a free, unlocked bay; no other move changes whether an update is in
flight. -/
inductive Move : State → State → Prop
  | begins (b : BayNo) (w : Work) (full : Bool) (s : State) (free : (s.bay b).inFlight = false)
      (unlocked : s.locked b = false) : Move s (commitCore b w full s)
  | entry (b : BayNo) (e : BayEntry) (s : State) (same : e.inFlight = (s.bay b).inFlight) : Move s (s.setBay b e)
  | feeder (f : FeederNo) (x : Feeder) (s : State) : Move s (s.setFeeder f x)
  | link (l : LinkTracker) (s : State) : Move s { s with link := l }
  | sources (q : Sources) (s : State) : Move s { s with sources := q }
  | mailbox (m : Mailbox) (s : State) : Move s { s with mailbox := m }
  | status (x : StatusWriter) (s : State) : Move s { s with status := x }
  | counters (c : Counters) (s : State) : Move s { s with counters := c }
  | fetch (x : Option Fetch) (s : State) : Move s { s with access := { s.access with fetch := x } }

/-- A run of moves. -/
abbrev Moves : State → State → Prop := Relation.ReflTransGen Move

theorem Moves.one {s t : State} (h : Move s t) : Moves s t := Relation.ReflTransGen.single h

/-- A property that every move keeps is kept by every run of moves. -/
theorem Moves.keeps {P : State → Prop} (step : ∀ s t, Move s t → P s → P t) {s t : State} (h : Moves s t) : P s → P t := by
  intro hs
  induction h with
  | refl => exact hs
  | tail _ hm ih => exact step _ _ hm ih

/-- A value that no move changes is unchanged by a run of moves. -/
theorem Moves.same {α : Type} (f : State → α) (step : ∀ s t, Move s t → f t = f s) {s t : State} (h : Moves s t) :
    f t = f s := by
  induction h with
  | refl => rfl
  | tail _ hm ih => exact (step _ _ hm).trans ih

/-! ## The operations are runs of moves -/

theorem mailboxStatus_moves (m : Mailbox) (x : StatusWriter) (s : State) :
    Moves s { s with mailbox := m, status := x } :=
  (Moves.one (.mailbox m s)).trans (Moves.one (.status x { s with mailbox := m }))

theorem linkSources_moves (l : LinkTracker) (q : Sources) (s : State) : Moves s { s with link := l, sources := q } :=
  (Moves.one (.link l s)).trans (Moves.one (.sources q { s with link := l }))

theorem countersStatus_moves (c : Counters) (x : StatusWriter) (s : State) :
    Moves s { s with counters := c, status := x } :=
  (Moves.one (.counters c s)).trans (Moves.one (.status x { s with counters := c }))

theorem entry_moves (b : BayNo) (e : BayEntry) (s : State) (same : e.inFlight = (s.bay b).inFlight) :
    Moves s (s.setBay b e) := .one (.entry b e s same)

theorem finish_moves (r : Result) (s : State) : Moves s (s.finish r) := by
  unfold State.finish
  split
  · exact .refl
  · exact mailboxStatus_moves _ _ s

theorem setProgress_moves (p : Progress) (s : State) : Moves s (s.setProgress p) := .one (.mailbox _ s)

theorem wantRewrite_moves (s : State) : Moves s s.wantRewrite := .one (.status _ s)

theorem count_moves (c : Counters) (s : State) : Moves s (s.count c) :=
  countersStatus_moves c _ s

theorem setWaiting_moves (b : BayNo) (l : List BayEvent) (s : State) : Moves s (s.setWaiting b l) :=
  entry_moves b _ s (by rfl)

theorem eligible_free {s : State} {b : BayNo} (h : eligible s b = true) :
    (s.bay b).inFlight = false ∧ s.locked b = false := by
  simp only [eligible, Bool.and_eq_true, Bool.not_eq_true'] at h
  exact ⟨h.1.1.2, h.2⟩

theorem grant_moves (f : FeederNo) (b : BayNo) (s : State) (h : eligible s b = true) : Moves s (grant f b s) :=
  (Moves.one (.feeder f _ s)).tail (.begins b _ false _ (eligible_free h).1 (eligible_free h).2)

theorem grantPass_moves (f : FeederNo) : ∀ (q : List (BayNo × Time)) (s : State), Moves s (grantPass f q s)
  | [], _ => .refl
  | (b, _) :: rest, s => by
    unfold grantPass
    split
    · rename_i h
      simp only [Bool.and_eq_true] at h
      exact (grant_moves f b s h.2).trans (grantPass_moves f rest _)
    · exact grantPass_moves f rest s

theorem act_moves (f : FeederNo) (s : State) : Moves s (act f s) := grantPass_moves f _ s

theorem foldl_moves {α : Type} (g : State → α → State) (h : ∀ s a, Moves s (g s a)) :
    ∀ (l : List α) (s : State), Moves s (l.foldl g s)
  | [], _ => .refl
  | a :: rest, s => (h s a).trans (foldl_moves g h rest _)

theorem feederReports_moves (b : BayNo) (rs : List Report) (s : State) : Moves s (feederReports b rs s) :=
  (foldl_moves (applyReport b) (fun s r => Moves.one (.feeder r.feeder _ s)) _ s).trans
    (foldl_moves _ (fun s f => act_moves f s) _ _)

theorem commit_moves (b : BayNo) (w : Work) (full : Bool) (s : State) (free : (s.bay b).inFlight = false)
    (unl : s.locked b = false) : Moves s (commit b w full s) :=
  (Moves.one (.begins b w full s free unl)).trans (feederReports_moves b _ _)

theorem update_moves (b : BayNo) (g : Work → Work) (s : State) (free : (s.bay b).inFlight = false)
    (unl : s.locked b = false) : Moves s (update b g s) := commit_moves b _ false s free unl

theorem meetFrame_moves (b : BayNo) (h : HandedFrame) (s : State) (free : (s.bay b).inFlight = false)
    (unl : s.locked b = false) : Moves s (meetFrame b h s) := by
  unfold meetFrame
  split
  · exact update_moves b _ s free unl
  · exact .refl

theorem beginCommand_moves (b : BayNo) (w : Work) (full : Bool) (s : State) (free : (s.bay b).inFlight = false)
    (unl : s.locked b = false) : Moves s (beginCommand b w full s) :=
  (setProgress_moves _ s).trans (commit_moves b w full _ free unl)

theorem linkMap_moves (a : RadioAddr) (b : BayNo) (s : State) : Moves s (linkMap a b s) := by
  unfold linkMap
  split
  · exact linkSources_moves _ _ s
  · exact .one (.link _ s)

theorem linkMap_bay (a : RadioAddr) (b x : BayNo) (s : State) : (linkMap a b s).bay x = s.bay x := by
  unfold linkMap; split <;> rfl

theorem linkMap_locked (a : RadioAddr) (b x : BayNo) (s : State) : (linkMap a b s).locked x = s.locked x := by
  unfold linkMap; split <;> rfl

theorem linkUnmap_moves (a : RadioAddr) (b : BayNo) (s : State) : Moves s (linkUnmap a b s) :=
  linkSources_moves _ _ s

theorem turnCommand_moves (b : BayNo) (s : State) (free : (s.bay b).inFlight = false) (unl : s.locked b = false) :
    Moves s (turnCommand b s) := by
  unfold turnCommand
  split
  · exact .refl
  · split
    · unfold turnMapTag
      simp only []
      split
      · exact finish_moves _ s
      · exact (linkMap_moves _ b s).trans
          (beginCommand_moves b _ true _ (by rw [linkMap_bay]; exact free) (by rw [linkMap_locked]; exact unl))
    · unfold turnUnmapTag
      split
      · exact finish_moves _ s
      · exact (linkUnmap_moves _ b s).trans (beginCommand_moves b _ true _ free unl)
    · unfold turnSetLoading
      split
      · exact finish_moves _ s
      · exact beginCommand_moves b _ false s free unl
    · unfold turnForceDefrost
      split
      · exact beginCommand_moves b _ false s free unl
      · exact finish_moves _ s
    · unfold turnCancelDefrost
      split
      · exact beginCommand_moves b _ false s free unl
      · exact finish_moves _ s
    · unfold turnAssignFeeder
      split
      · exact beginCommand_moves b _ false s free unl
      · exact finish_moves _ s
    · exact .refl

theorem clearHandOff_moves (s : State) : Moves s s.clearHandOff := .one (.link _ s)

theorem startEvent_moves (b : BayNo) (ev : BayEvent) (s : State) (free : (s.bay b).inFlight = false)
    (unl : s.locked b = false) : Moves s (startEvent b ev s) := by
  unfold startEvent
  split
  · split
    · exact .refl
    · exact update_moves b _ s free unl
  · exact update_moves b _ s free unl
  · split
    · exact (clearHandOff_moves s).trans (meetFrame_moves b _ _ free unl)
    · exact .refl
  · exact meetFrame_moves b _ s free unl
  · exact turnCommand_moves b s free unl

/-- The lock, seen through `locked`, does not change in a run of moves. -/
theorem Move.lock {s t : State} (h : Move s t) : t.access.lock = s.access.lock := by cases h <;> rfl

theorem Moves.lock {s t : State} (h : Moves s t) : t.access.lock = s.access.lock :=
  h.same (fun s => s.access.lock) fun _ _ => Move.lock

theorem Moves.locked {s t : State} (h : Moves s t) (b : BayNo) : t.locked b = s.locked b := by
  simp only [State.locked, h.lock]

theorem turnList_moves (b : BayNo) : ∀ (l : List BayEvent) (s : State), (s.bay b).inFlight = false →
    s.locked b = false → Moves s (turnList b l s)
  | [], _, _, _ => .refl
  | ev :: rest, s, free, unl => by
    have h0 : Moves s (s.setWaiting b rest) := setWaiting_moves b rest s
    have hf : ((s.setWaiting b rest).bay b).inFlight = false := by simp [State.setWaiting, free]
    have hu : (s.setWaiting b rest).locked b = false := unl
    have h1 := h0.trans (startEvent_moves b ev _ hf hu)
    unfold turnList
    simp only []
    split
    · exact h1
    · rename_i hfree
      exact h1.trans (turnList_moves b rest _ (by simpa using hfree) ((Moves.locked h1 b).trans unl))

theorem turn_moves (b : BayNo) (s : State) : Moves s (turn b s) := by
  unfold turn
  split
  · exact .refl
  · rename_i h
    simp only [Bool.or_eq_true, not_or, Bool.not_eq_true] at h
    exact turnList_moves b _ s h.1 h.2

theorem offerHeld_moves (b : BayNo) (ev : BayEvent) (s : State) : Moves s (offerHeld b ev s) := by
  unfold offerHeld
  simp only []
  split
  · exact entry_moves b _ s (by rfl)
  · rename_i hl
    split
    · exact setWaiting_moves b _ s
    · rename_i hf
      exact startEvent_moves b ev s (by simpa using hf) (by simpa using hl)

theorem offerFrame_moves (h : HandedFrame) (s : State) : Moves s (offerFrame h s) := by
  unfold offerFrame
  simp only []
  split
  · have h1 : Moves s (s.setBay h.bay { s.bay h.bay with deferred := some h }).clearHandOff :=
      (entry_moves h.bay _ s (by rfl)).trans (clearHandOff_moves _)
    split
    · exact h1.trans (count_moves _ _)
    · exact h1
  · rename_i hl
    split
    · exact setWaiting_moves h.bay _ s
    · rename_i hf
      exact startEvent_moves h.bay _ s (by simpa using hf) (by simpa using hl)

theorem offerCommand_moves (b : BayNo) (s : State) : Moves s (offerCommand b s) := by
  unfold offerCommand
  simp only []
  split
  · exact setProgress_moves _ s
  · rename_i hl
    split
    · exact (setWaiting_moves b _ s).trans (setProgress_moves _ _)
    · rename_i hf
      exact (setProgress_moves _ s).trans
        (startEvent_moves b _ _ (by simpa [State.bay] using hf) (by simpa [State.locked] using hl))

theorem fetchJudge_moves (s : State) : Moves s (fetchJudge s) := by
  unfold fetchJudge
  split
  · exact .refl
  · split
    · exact .one (.fetch _ s)
    · exact .refl

theorem finishUpdating_moves (b : BayNo) (s : State) : Moves s (finishUpdating b s) := by
  unfold finishUpdating
  split
  · exact finish_moves _ s
  · exact .refl

/-- The end of an update: the bay is free, and what follows is a run of moves. -/
theorem endUpdate_moves (b : BayNo) (s : State) :
    Moves (s.setBay b { s.bay b with inFlight := false }) (endUpdate b s) := by
  unfold endUpdate
  exact (((finishUpdating_moves b _).trans (turn_moves b _)).trans (act_moves _ _)).trans (fetchJudge_moves _)

theorem unlocked_moves (b : BayNo) (s : State) : Moves s (unlocked b s) := by
  unfold unlocked
  simp only []
  refine Relation.ReflTransGen.trans ?_ ((act_moves _ _).trans (wantRewrite_moves _))
  refine Relation.ReflTransGen.trans ?_ (turn_moves b _)
  split
  · exact (entry_moves b _ s (by rfl)).trans (setProgress_moves _ _)
  · exact entry_moves b _ s (by rfl)

/-! ## What no move changes -/

theorem Move.mem {s t : State} (h : Move s t) : t.mem = s.mem := by cases h <;> rfl
theorem Move.pending {s t : State} (h : Move s t) : t.pending = s.pending := by cases h <;> rfl
theorem Move.pins {s t : State} (h : Move s t) : t.pins = s.pins := by cases h <;> rfl
theorem Move.decoder {s t : State} (h : Move s t) : t.decoder = s.decoder := by cases h <;> rfl
theorem Move.arbiter {s t : State} (h : Move s t) : t.arbiter = s.arbiter := by cases h <;> rfl
theorem Move.inbox {s t : State} (h : Move s t) : t.inbox = s.inbox := by cases h <;> rfl
theorem Move.ring {s t : State} (h : Move s t) : t.ring = s.ring := by cases h <;> rfl
theorem Move.params {s t : State} (h : Move s t) : t.params = s.params := by cases h <;> rfl
theorem Move.clock {s t : State} (h : Move s t) : t.clock = s.clock := by cases h <;> rfl
theorem Move.freeUsed {s t : State} (h : Move s t) : t.freeUsed = s.freeUsed := by cases h <;> rfl
theorem Move.answer {s t : State} (h : Move s t) : t.front.answer = s.front.answer := by cases h <;> rfl

/-- A move keeps the outstanding request and its path but for the overtaken mark. -/
theorem Move.request {s t : State} (h : Move s t) :
    t.front.outstanding.map Outstanding.request = s.front.outstanding.map Outstanding.request := by
  cases h with
  | begins b w full s _ _ =>
    cases ho : s.front.outstanding <;> simp [commitCore, beginNotice, queueRecord, raiseAll, tellOrders, State.setBay, ho]
  | _ => rfl

/-- A move keeps the keys of the Delayed Read Table. -/
theorem Move.keys {s t : State} (h : Move s t) :
    t.access.table.map DelayedEntry.key = s.access.table.map DelayedEntry.key := by
  cases h with
  | begins b w full s _ _ =>
    simp only [commitCore, beginNotice, List.map_map]
    apply List.map_congr_left
    intro e _
    simp only [Function.comp]
    split <;> rfl
  | _ => rfl

theorem Moves.mem {s t : State} (h : Moves s t) : t.mem = s.mem := h.same _ fun _ _ => Move.mem
theorem Moves.pending {s t : State} (h : Moves s t) : t.pending = s.pending := h.same _ fun _ _ => Move.pending
theorem Moves.pins {s t : State} (h : Moves s t) : t.pins = s.pins := h.same _ fun _ _ => Move.pins
theorem Moves.decoder {s t : State} (h : Moves s t) : t.decoder = s.decoder := h.same _ fun _ _ => Move.decoder
theorem Moves.arbiter {s t : State} (h : Moves s t) : t.arbiter = s.arbiter := h.same _ fun _ _ => Move.arbiter
theorem Moves.inbox {s t : State} (h : Moves s t) : t.inbox = s.inbox := h.same _ fun _ _ => Move.inbox
theorem Moves.ring {s t : State} (h : Moves s t) : t.ring = s.ring := h.same _ fun _ _ => Move.ring
theorem Moves.params {s t : State} (h : Moves s t) : t.params = s.params := h.same _ fun _ _ => Move.params
theorem Moves.clock {s t : State} (h : Moves s t) : t.clock = s.clock := h.same _ fun _ _ => Move.clock
theorem Moves.freeUsed {s t : State} (h : Moves s t) : t.freeUsed = s.freeUsed := h.same _ fun _ _ => Move.freeUsed
theorem Moves.answer {s t : State} (h : Moves s t) : t.front.answer = s.front.answer := h.same (fun s => s.front.answer) fun _ _ => Move.answer

theorem Moves.request {s t : State} (h : Moves s t) :
    t.front.outstanding.map Outstanding.request = s.front.outstanding.map Outstanding.request :=
  h.same (fun s => s.front.outstanding.map Outstanding.request) fun _ _ => Move.request

theorem Moves.keys {s t : State} (h : Moves s t) :
    t.access.table.map DelayedEntry.key = s.access.table.map DelayedEntry.key :=
  h.same (fun s => s.access.table.map DelayedEntry.key) fun _ _ => Move.keys

end Sys2Proof.Machine
end

