-- ==== Sys2Proof/Laws/Memory.lean ====
section
/-! SUPPORT. Record memory: the canonical form is kept by every write, and a byte reads as it was last written. -/

namespace Sys2Proof.Machine

theorem Memory.wfFrom_mono (m : Memory) : ∀ {lo hi : Nat}, lo ≤ hi → Memory.wfFrom hi m = true → Memory.wfFrom lo m = true := by
  cases m with
  | nil => intro _ _ _ _; rfl
  | cons c rest =>
    intro lo hi h
    simp only [Memory.wfFrom, Bool.and_eq_true, decide_eq_true_eq]
    rintro ⟨⟨h1, h2⟩, h3⟩
    exact ⟨⟨by omega, h2⟩, h3⟩

/-- Putting a byte that is not the unlisted one keeps the form. -/
theorem Memory.insert_wfFrom (a : Nat) (v : Byte) (hv : v ≠ Config.unlistedByte) :
    ∀ (m : Memory) (lo : Nat), lo ≤ a → Memory.wfFrom lo m = true → Memory.wfFrom lo (m.insert a v) = true
  | [], lo, hlo, _ => by simp [Memory.insert, Memory.wfFrom, hlo, hv]
  | (x, w) :: rest, lo, hlo, h => by
    simp only [Memory.wfFrom, Bool.and_eq_true, decide_eq_true_eq, bne_iff_ne, ne_eq] at h
    obtain ⟨⟨h1, h2⟩, h3⟩ := h
    unfold Memory.insert
    split
    · rename_i hx
      simp only [Memory.wfFrom, Bool.and_eq_true, decide_eq_true_eq, bne_iff_ne, ne_eq]
      exact ⟨⟨hlo, hv⟩, ⟨⟨by omega, h2⟩, h3⟩⟩
    · split
      · rename_i hx
        subst hx
        simp only [Memory.wfFrom, Bool.and_eq_true, decide_eq_true_eq, bne_iff_ne, ne_eq]
        exact ⟨⟨hlo, hv⟩, h3⟩
      · simp only [Memory.wfFrom, Bool.and_eq_true, decide_eq_true_eq, bne_iff_ne, ne_eq]
        exact ⟨⟨h1, h2⟩, Memory.insert_wfFrom a v hv rest (x + 1) (by omega) h3⟩

/-- Removing an entry keeps the form. -/
theorem Memory.erase_wfFrom (a : Nat) :
    ∀ (m : Memory) (lo : Nat), Memory.wfFrom lo m = true → Memory.wfFrom lo (m.erase a) = true
  | [], _, _ => rfl
  | (x, w) :: rest, lo, h => by
    have h' := h
    simp only [Memory.wfFrom, Bool.and_eq_true, decide_eq_true_eq, bne_iff_ne, ne_eq] at h
    obtain ⟨⟨h1, h2⟩, h3⟩ := h
    unfold Memory.erase
    split
    · exact h'
    · split
      · exact Memory.wfFrom_mono rest (by omega) h3
      · simp only [Memory.wfFrom, Bool.and_eq_true, decide_eq_true_eq, bne_iff_ne, ne_eq]
        exact ⟨⟨h1, h2⟩, Memory.erase_wfFrom a rest (x + 1) h3⟩

/-- Writing one byte keeps the canonical form. -/
theorem Memory.write_wf (m : Memory) (a : Nat) (v : Byte) (h : m.wf = true) : (m.write a v).wf = true := by
  unfold Memory.write Memory.wf at *
  split
  · exact Memory.erase_wfFrom a m 0 h
  · rename_i hv
    exact Memory.insert_wfFrom a v hv m 0 (Nat.zero_le a) h

/-- Writing a lane keeps the canonical form. -/
theorem Memory.writeLane_wf (m : Memory) (w : Nat) (mask : Mask) (x : Word) (k : Nat) (h : m.wf = true) :
    (m.writeLane w mask x k).wf = true := by
  unfold Memory.writeLane
  split
  · exact Memory.write_wf _ _ _ h
  · exact h

/-- Writing a word under its mask keeps the canonical form. -/
theorem Memory.writeWord_wf (m : Memory) (w : Nat) (mask : Mask) (x : Word) (h : m.wf = true) :
    (m.writeWord w mask x).wf = true :=
  Memory.writeLane_wf _ _ _ _ _ (Memory.writeLane_wf _ _ _ _ _ (Memory.writeLane_wf _ _ _ _ _
    (Memory.writeLane_wf _ _ _ _ _ h)))

/-- Writing words keeps the canonical form. -/
theorem Memory.writeWords_wf : ∀ (ws : List (Mask × Word)) (m : Memory) (w : Nat), m.wf = true →
    (m.writeWords w ws).wf = true
  | [], _, _, h => h
  | (mask, x) :: rest, m, w, h => Memory.writeWords_wf rest _ _ (Memory.writeWord_wf m w mask x h)

/-- Below the first listed address every byte is unlisted. -/
theorem Memory.read_below : ∀ (m : Memory) (lo a : Nat), Memory.wfFrom lo m = true → a < lo →
    m.read a = Config.unlistedByte
  | [], _, _, _, _ => rfl
  | (x, w) :: rest, lo, a, h, ha => by
    simp only [Memory.wfFrom, Bool.and_eq_true, decide_eq_true_eq, bne_iff_ne, ne_eq] at h
    obtain ⟨⟨h1, _⟩, h3⟩ := h
    have hx : ¬ x = a := by omega
    simp only [Memory.read, if_neg hx]
    exact Memory.read_below rest (x + 1) a h3 (by omega)

theorem Memory.read_insert (a : Nat) (v : Byte) (b : Nat) :
    ∀ m : Memory, (m.insert a v).read b = if a = b then v else m.read b
  | [] => by simp [Memory.insert, Memory.read]
  | (x, w) :: rest => by
    unfold Memory.insert
    split
    · simp [Memory.read]
    · split
      · rename_i hx
        subst hx
        by_cases hb : a = b <;> simp [Memory.read, hb]
      · rename_i h1 h2
        simp only [Memory.read, Memory.read_insert a v b rest]
        by_cases hb : x = b
        · have : ¬ a = b := by omega
          simp [hb, this]
        · simp [hb]

theorem Memory.read_erase (a b : Nat) :
    ∀ (m : Memory) (lo : Nat), Memory.wfFrom lo m = true →
      (m.erase a).read b = if a = b then Config.unlistedByte else m.read b
  | [], _, _ => by simp [Memory.erase, Memory.read]
  | (x, w) :: rest, lo, h => by
    have h' := h
    simp only [Memory.wfFrom, Bool.and_eq_true, decide_eq_true_eq, bne_iff_ne, ne_eq] at h
    obtain ⟨⟨h1, _⟩, h3⟩ := h
    unfold Memory.erase
    split
    · by_cases hb : a = b
      · subst hb
        simp only [if_true]
        exact Memory.read_below ((x, w) :: rest) x a
          (by simp only [Memory.wfFrom, Bool.and_eq_true, decide_eq_true_eq] at h' ⊢; exact ⟨⟨le_refl x, h'.1.2⟩, h'.2⟩)
          (by omega)
      · simp [hb]
    · split
      · rename_i hx
        subst hx
        by_cases hb : a = b
        · subst hb
          simp only [if_true]
          exact Memory.read_below rest (a + 1) a h3 (by omega)
        · simp [Memory.read, hb]
      · rename_i h4 h5
        simp only [Memory.read, Memory.read_erase a b rest (x + 1) h3]
        by_cases hb : x = b
        · have : ¬ a = b := by omega
          simp [hb, this]
        · simp [hb]

/-- A byte reads as it was written; the others as before. -/
theorem Memory.read_write (m : Memory) (a b : Nat) (v : Byte) (h : m.wf = true) :
    (m.write a v).read b = if a = b then v else m.read b := by
  unfold Memory.write
  split
  · rename_i hv
    rw [Memory.read_erase a b m 0 h, hv]
  · exact Memory.read_insert a v b m

theorem Memory.read_writeLane (m : Memory) (w : Nat) (mask : Mask) (x : Word) (k b : Nat) (h : m.wf = true) :
    (m.writeLane w mask x k).read b = if mask.getLsbD k = true ∧ 4 * w + k = b then laneOf x k else m.read b := by
  unfold Memory.writeLane
  split
  · rename_i hk
    rw [Memory.read_write m _ _ _ h]
    simp [hk]
  · rename_i hk
    simp [hk]

/-- A byte of a word written under a mask. -/
theorem Memory.read_writeWord (m : Memory) (w : Nat) (mask : Mask) (x : Word) (b : Nat) (h : m.wf = true) :
    (m.writeWord w mask x).read b =
      if b / 4 = w ∧ mask.getLsbD (b % 4) = true then laneOf x (b % 4) else m.read b := by
  have h0 := Memory.writeLane_wf m w mask x 0 h
  have h1 := Memory.writeLane_wf _ w mask x 1 h0
  have h2 := Memory.writeLane_wf _ w mask x 2 h1
  unfold Memory.writeWord
  rw [Memory.read_writeLane _ w mask x 3 b h2, Memory.read_writeLane _ w mask x 2 b h1,
    Memory.read_writeLane _ w mask x 1 b h0, Memory.read_writeLane _ w mask x 0 b h]
  by_cases hb : b / 4 = w
  · have h4 : b = 4 * w + b % 4 := by omega
    have h5 : b % 4 < 4 := Nat.mod_lt _ (by decide)
    rcases (show b % 4 = 0 ∨ b % 4 = 1 ∨ b % 4 = 2 ∨ b % 4 = 3 by omega) with e | e | e | e
    all_goals
      rw [e] at h4
      subst h4
      simp [e, hb]
  · have e0 : ¬ 4 * w + 3 = b := by omega
    have e1 : ¬ 4 * w + 2 = b := by omega
    have e2 : ¬ 4 * w + 1 = b := by omega
    have e3 : ¬ 4 * w + 0 = b := by omega
    simp [hb, e0, e1, e2]
    omega

/-- Bytes outside the words written stay. -/
theorem Memory.read_writeWords_outside : ∀ (ws : List (Mask × Word)) (m : Memory) (w b : Nat), m.wf = true →
    (b / 4 < w ∨ w + ws.length ≤ b / 4) → (m.writeWords w ws).read b = m.read b
  | [], _, _, _, _, _ => rfl
  | (mask, x) :: rest, m, w, b, h, ho => by
    have ho' : b / 4 < w ∨ w + (rest.length + 1) ≤ b / 4 := by simpa using ho
    rw [Memory.writeWords, Memory.read_writeWords_outside rest _ (w + 1) b (Memory.writeWord_wf m w mask x h) (by omega),
      Memory.read_writeWord m w mask x b h, if_neg (by omega)]

/-- Every byte after a write of consecutive words. -/
theorem Memory.read_writeWords : ∀ (ws : List (Mask × Word)) (m : Memory) (w b i : Nat), m.wf = true →
    b / 4 = w + i → ∀ h : i < ws.length, (m.writeWords w ws).read b =
      if (ws[i]).1.getLsbD (b % 4) = true then laneOf (ws[i]).2 (b % 4) else m.read b
  | [], _, _, _, _, _, _, h => absurd h (by simp)
  | (mask, x) :: rest, m, w, b, 0, hm, hb, _ => by
    rw [Memory.writeWords, Memory.read_writeWords_outside rest _ (w + 1) b (Memory.writeWord_wf m w mask x hm) (by omega),
      Memory.read_writeWord m w mask x b hm]
    simp [hb]
  | (mask, x) :: rest, m, w, b, i + 1, hm, hb, h => by
    have hi : i < rest.length := by simpa using h
    have hne : ¬ (b / 4 = w ∧ mask.getLsbD (b % 4) = true) := by omega
    rw [Memory.writeWords,
      Memory.read_writeWords rest _ (w + 1) b i (Memory.writeWord_wf m w mask x hm) (by omega) hi,
      Memory.read_writeWord m w mask x b hm, if_neg hne]
    simp

/-- A word is its four lanes. -/
theorem lanes_join (x : Word) : laneOf x 3 ++ laneOf x 2 ++ laneOf x 1 ++ laneOf x 0 = x := by
  unfold laneOf
  ext i hi
  simp only [BitVec.getElem_append, BitVec.getElem_extractLsb']
  split
  · simp [BitVec.getLsbD_eq_getElem hi]
  · split
    · rw [← BitVec.getLsbD_eq_getElem hi]; congr 1; omega
    · split
      · rw [← BitVec.getLsbD_eq_getElem hi]; congr 1; omega
      · rw [← BitVec.getLsbD_eq_getElem hi]; congr 1; omega

/-- A word written with all its lanes reads back. -/
theorem Memory.readWord_writeWords (ws : List Word) (m : Memory) (w i : Nat) (hm : m.wf = true) (h : i < ws.length) :
    (m.writeWords w (fullWords ws)).readWord (w + i) = ws[i] := by
  have hl : i < (fullWords ws).length := by simpa [fullWords] using h
  have key : ∀ k, k < 4 → (m.writeWords w (fullWords ws)).read (4 * (w + i) + k) = laneOf ws[i] k := by
    intro k hk
    rw [Memory.read_writeWords (fullWords ws) m w (4 * (w + i) + k) i hm (by omega) hl]
    have e : (4 * (w + i) + k) % 4 = k := by omega
    have hf : fullMask.getLsbD k = true := by
      rcases (show k = 0 ∨ k = 1 ∨ k = 2 ∨ k = 3 by omega) with e | e | e | e <;> subst e <;> rfl
    simp [fullWords, e, hf]
  unfold Memory.readWord
  rw [key 3 (by decide), key 2 (by decide), key 1 (by decide), (by simpa using key 0 (by decide) :
    (m.writeWords w (fullWords ws)).read (4 * (w + i)) = laneOf ws[i] 0)]
  exact lanes_join _

/-- The lanes of four bytes joined into a word. -/
theorem laneOf_append (a b c d : Byte) (k : Nat) (hk : k < 4) :
    laneOf (d ++ c ++ b ++ a) k = if k = 0 then a else if k = 1 then b else if k = 2 then c else d := by
  have h : k = 0 ∨ k = 1 ∨ k = 2 ∨ k = 3 := by omega
  unfold laneOf
  rcases h with rfl | rfl | rfl | rfl <;> ext j hj <;> rw [BitVec.getElem_extractLsb'] <;>
    erw [BitVec.getLsbD_append, BitVec.getLsbD_append, BitVec.getLsbD_append]
  · simp [hj]
  · simp [hj, show ¬ 8 + j < 8 by omega]
  · simp [hj, show ¬ 16 + j < 8 by omega, show ¬ 16 + j - 8 < 8 by omega, show 16 + j - 8 - 8 = j by omega]
  · simp [hj, show ¬ 24 + j < 8 by omega, show ¬ 24 + j - 8 < 8 by omega, show ¬ 24 + j - 8 - 8 < 8 by omega,
      show 24 + j - 8 - 8 - 8 = j by omega]

/-- A lane of a word read is the byte memory holds there. -/
theorem Memory.laneOf_readWord (m : Memory) (w k : Nat) (hk : k < 4) : laneOf (m.readWord w) k = m.read (4 * w + k) := by
  have h : k = 0 ∨ k = 1 ∨ k = 2 ∨ k = 3 := by omega
  unfold Memory.readWord
  rw [laneOf_append _ _ _ _ k hk]
  rcases h with rfl | rfl | rfl | rfl <;> rfl

end Sys2Proof.Machine
end

