-- ==== Sys2Proof/Laws/Steps.lean ====
section
/-! SUPPORT. What ends every step (`settle`), where a setup write is routed, and how a request is presented. -/

namespace Sys2Proof.Machine

/-! ## The end of a step -/

/-- The Status Writer has nothing to begin and nothing to present. -/
def WriterQuiet (x : StatusWriter) : Prop :=
  (x.presented.isSome = true ∧ (x.rewrite.isNone && x.wanted) = false)
    ∨ (x.rewrite = none ∧ x.wanted = false ∧ x.resultPending = false)

/-- The Status Writer changes its own state alone. -/
theorem statusSettle_eq (s : State) : statusSettle s = { s with status := (statusSettle s).status } := by
  unfold statusSettle
  split
  · unfold beginUnderBurst
    split <;> rfl
  · split
    · split <;> rfl
    · split
      · rfl
      · split <;> rfl

/-- With no claim to make, a step's end changes the Status Writer alone. -/
theorem settle_eq_of_not_ready {s : State} (h : noticeReady s = none) :
    settle s = { s with status := (settle s).status } := by
  have e : noticeSettle s = s := by simp [noticeSettle, h]
  unfold settle
  rw [e]
  exact statusSettle_eq s

theorem statusSettle_of_quiet {s : State} (h : WriterQuiet s.status) : statusSettle s = s := by
  unfold statusSettle
  rcases h with ⟨h, hb⟩ | ⟨h1, h2, h3⟩
  · simp [h, beginUnderBurst, hb]
  · split
    · simp [beginUnderBurst, h2]
    · simp [h1, h2, h3]

/-- With no claim and no presentation to make, a step's end changes nothing. -/
theorem settle_of_quiet {s : State} (h : noticeReady s = none) (hw : WriterQuiet s.status) : settle s = s := by
  have e : noticeSettle s = s := by simp [noticeSettle, h]
  unfold settle
  rw [e]
  exact statusSettle_of_quiet hw

theorem statusSettle_ring (s : State) : (statusSettle s).ring = s.ring := by rw [statusSettle_eq]

theorem claim_inFlight (s : State) (x : Source) : (claim s x).ring.inFlight = some (entryWords s x) := rfl

/-- A settled state has no claim to make. -/
theorem Settled.not_ready {s : State} (h : Settled s) : noticeReady s = none := by
  cases hr : noticeReady s with
  | none => rfl
  | some x =>
    exfalso
    have h1 : (settle s).ring.inFlight = some (entryWords s x) := by
      unfold settle
      rw [statusSettle_ring]
      simp [noticeSettle, hr, claim_inFlight]
    have h2 : s.ring.inFlight = none := by
      unfold noticeReady at hr
      split at hr
      · rename_i hc
        simp only [Bool.and_eq_true, Option.isNone_iff_eq_none] at hc
        exact hc.1.2
      · cases hr
    rw [h, h2] at h1
    cases h1

/-- A settled state has nothing to present. -/
theorem Settled.quiet {s : State} (h : Settled s) : WriterQuiet s.status := by
  have e : noticeSettle s = s := by simp [noticeSettle, h.not_ready]
  have h1 : statusSettle s = s := by
    have := h
    unfold Settled settle at this
    rwa [e] at this
  by_cases hp : s.status.presented.isSome = true
  · refine .inl ⟨hp, ?_⟩
    cases hb : s.status.rewrite.isNone && s.status.wanted with
    | false => rfl
    | true =>
      have hw : s.status.wanted = true := (Bool.and_eq_true_iff.1 hb).2
      have h2 : (statusSettle s).status.wanted = true := by rw [h1]; exact hw
      unfold statusSettle beginUnderBurst at h2
      simp [hp, hb] at h2
  · right
    have hn : s.status.presented = none := by simpa using hp
    have h2 : (statusSettle s).status.presented = none := by rw [h1]; exact hn
    unfold statusSettle at h2
    simp only [hn, Option.isSome_none, Bool.false_eq_true, if_false] at h2
    cases hr : s.status.rewrite with
    | some n =>
      rw [hr] at h2
      simp only at h2
      split at h2 <;> simp [presentResult, presentBlock] at h2
    | none =>
      rw [hr] at h2
      simp only at h2
      refine ⟨rfl, ?_, ?_⟩
      · cases hw : s.status.wanted with
        | false => rfl
        | true => rw [hw] at h2; simp [beginRewrite, presentBlock] at h2
      · cases hw : s.status.resultPending with
        | false => rfl
        | true =>
          rw [hw] at h2
          split at h2
          · simp [beginRewrite, presentBlock] at h2
          · simp [presentResult] at h2

theorem settled_of_quiet {s : State} (h : noticeReady s = none) (hw : WriterQuiet s.status) : Settled s :=
  settle_of_quiet h hw

/-- Whether a claim is to be made depends on the mode, the ring and the sources. -/
theorem noticeReady_congr {s t : State} (hm : (t.decoder.mode == .pass) = (s.decoder.mode == .pass))
    (hr : t.ring = s.ring) (hs : t.sources = s.sources) : noticeReady t = noticeReady s := by
  unfold noticeReady
  simp only [bne, hm, hr, hs]

/-- The entries a claim changes: none but the pending order of the bay claimed. -/
theorem clearOrder_bay (s : State) (x : Source) (b : BayNo) :
    (clearOrder s x).bay b = s.bay b
      ∨ (clearOrder s x).bay b = { s.bay b with defrost := { (s.bay b).defrost with pending := none } } := by
  unfold clearOrder
  split
  · rename_i c
    by_cases h : c = b
    · subst h; right; simp
    · left; simp [setBay_bay, h]
  all_goals exact .inl rfl

/-! ## Routes of the setup area (R8) -/

theorem pagesOf_bounds (m : BitVec 2) : 128 ≤ pagesOf m ∧ pagesOf m ≤ 1024 := by
  revert m; decide

theorem setupWrite_addr (d : Decoder) (i : Initiator) (k : Nat) (v : Word) (h : k < 1024) :
    (setupWrite d i k v).addr.toNat = d.setupBase + k := by
  have := pagesOf_bounds d.memSize
  simp only [setupWrite, Decoder.setupBase, BitVec.toNat_ofNat]
  omega

/-- A single full-lane word written to a role offset below 9 is routed by its role. -/
theorem route_setupWrite (d : Decoder) (i : Initiator) (k : Nat) (v : Word) (hk : k ≤ 8)
    (hr : setupRole k ≠ .plain) : route d (setupWrite d i k v) = routeSetupWrite k [(fullMask, v)] := by
  have hb := pagesOf_bounds d.memSize
  have ha := setupWrite_addr d i k v (by omega)
  have hlen : (setupWrite d i k v).access.length = 1 := rfl
  have hs : badShape d (setupWrite d i k v) = false := by
    simp only [badShape, ha, hlen, Decoder.words, Decoder.setupBase, Bool.or_eq_false_iff, decide_eq_false_iff_not]
    omega
  have hroles : (rolesTouched (d.setupBase + k - d.setupBase) 1).any (fun x => x != .plain) = true := by
    simp [rolesTouched, hr]
  unfold route
  simp only [hs, ha, hlen, hroles, Bool.false_eq_true, if_false]
  simp [setupWrite]

theorem route_command (d : Decoder) (i : Initiator) (v : Word) : route d (setupWrite d i 0 v) = .command v := by
  rw [route_setupWrite d i 0 v (by decide) (by decide)]
  rfl

theorem route_argument (d : Decoder) (i : Initiator) (x : ArgName) (v : Word) :
    route d (setupWrite d i (argOffset x) v) = .argument x v := by
  cases x <;> (rw [route_setupWrite d i _ v (by decide) (by decide)]; rfl)

theorem route_consumer (d : Decoder) (i : Initiator) (v : Word) : route d (setupWrite d i 8 v) = .consumer v := by
  rw [route_setupWrite d i 8 v (by decide) (by decide)]
  rfl

/-! ## Presentation -/

/-- With no HALT to complete first, an event is what happens next (R14). -/
theorem event_of_live {s : State} {c : State → Bool} {f : State → State} (h : Live s) :
    event s c f = .next (happen c f s) := by
  unfold event haltFirst
  simp [h.1, h.2]

/-- A HALT that has completed waits no more. -/
theorem haltDue_completeHalt (s : State) (h : s.haltDue = true) : (completeHalt s).haltDue = false := by
  unfold State.haltDue at h
  simp only [Bool.and_eq_true] at h
  obtain ⟨cmd, hc⟩ := Option.isSome_iff_exists.1 h.1.2
  simp [State.haltDue, completeHalt, State.finish, State.wantRewrite, hc]

/-- A HALT whose moment has come completes before an event, and the event finds it complete (R14). -/
theorem event_of_haltDue {s : State} {c : State → Bool} {f : State → State} (hr : s.pins.resetN = true)
    (h : s.haltDue = true) : event s c f = .next (happen c f (settle (completeHalt s))) := by
  unfold event haltFirst
  simp [hr, h]

/-- Periods that do not complete the second base's count only pass (R193). -/
theorem elapse_of_short {n : Nat} {s : State} (h : s.clock.base + n < secondPeriods) : elapse n s = passPeriods n s := by
  unfold elapse
  simp [Nat.div_eq_of_lt h, Nat.mod_eq_of_lt h, passTicks]

/-- A request that releases no lock is judged on the state as it is. -/
theorem present_of_not_holder {r : Request} {s : State} (h : s.releasedBy r = false) :
    present r s = answer r s.clearAnswer (route s.decoder r) := by
  have h1 : releaseAtPresentation r s.clearAnswer = s.clearAnswer := by
    have h2 : s.clearAnswer.releasedBy r = false := h
    simp [releaseAtPresentation, h2]
  unfold present
  simp only [h1]
  rfl

theorem notHolder_releasedBy {r : Request} {s : State} (h : NotHolder s r.initiator) : s.releasedBy r = false := by
  unfold State.releasedBy
  cases hl : s.access.lock with
  | none => simp
  | some l => simp [h l hl]

/-- The step of a request the part takes. -/
theorem requestStep_accepts {r : Request} {s : State} (h : Accepts s) :
    requestStep r s = .next (settle (present r s)) := by
  unfold requestStep
  rw [event_of_live h.1]
  simp [happen, h.2]

/-- The step of a command word while the mailbox takes one. -/
theorem commandWordStep_open {i : Initiator} {s : State} (code : Word) (hc : code ≠ 0) (ha : Accepts s)
    (hn : NotHolder s i) (hb : s.mailbox.state ≠ .busy) :
    commandWordStep i code s =
      .next (settle ((takeAndRun code s.clearAnswer).pass (setupWrite s.decoder i 0 code) .commandWord)) := by
  unfold commandWordStep
  rw [requestStep_accepts ha, present_of_not_holder (notHolder_releasedBy hn), route_command]
  have hb' : s.clearAnswer.mailbox.state ≠ .busy := hb
  simp only [answer, answerCommand, if_neg hb', if_neg hc]

/-- The step of a command word while the mailbox is BUSY. -/
theorem commandWordStep_busy {i : Initiator} {s : State} (code : Word) (ha : Accepts s) (hn : NotHolder s i)
    (hb : s.mailbox.state = .busy) :
    commandWordStep i code s = .next (settle (s.clearAnswer.complete i .retry)) := by
  unfold commandWordStep
  rw [requestStep_accepts ha, present_of_not_holder (notHolder_releasedBy hn), route_command]
  have hb' : s.clearAnswer.mailbox.state = .busy := hb
  simp only [answer, answerCommand, if_pos hb']
  rfl

end Sys2Proof.Machine
end

