-- ==== Sys2Proof/Tests/Slice0.lean ====
section
/-! SUPPORT. The model's own tests: ill-formed commands, worked numbers of the manual, and, for the hypotheses of every
statement, a concrete state and operands that meet them (`test_<statement>_met`), clause by clause. -/

namespace Sys2Proof.Tests

open Sys2Proof Sys2Proof.Machine

/-! ## Ill-formed commands are refused -/

theorem test_refuses_read_of_no_word : Instr.wellFormed (.plainRequest ⟨0, 0, false, .read 0⟩) = false := by decide

theorem test_refuses_nine_word_write :
    Instr.wellFormed (.plainRequest ⟨0, 0, false, .write (List.replicate 9 (15, 0))⟩) = false := by decide

theorem test_refuses_frame_of_no_word : Instr.wellFormed (.inboxFrameWrite 0 0 []) = false := by decide

theorem test_refuses_nine_word_record_read : Instr.wellFormed (.bayRecordRead 0 0 9) = false := by decide

theorem test_refuses_locked_read_of_no_word : Instr.wellFormed (.lockedBayRecordRead 0 0 0) = false := by decide

theorem test_refuses_settings_write_of_no_word : Instr.wellFormed (.settingsWrite 0 0 false []) = false := by decide

theorem test_refuses_known_code_as_unknown : Instr.wellFormed (.unknownCommand 0 14) = false := by decide

theorem test_refuses_zero_as_unknown : Instr.wellFormed (.unknownCommand 0 0) = false := by decide

theorem test_accepts_first_unknown_code : Instr.wellFormed (.unknownCommand 0 15) = true := by decide

/-! ## Worked numbers of the manual -/

/-- The nine bytes 31h-39h give 29B1h (02): the last half-byte pair is fed bit by bit. -/
theorem test_check_code_of_the_manual :
    crcBits (0x39 : Half) 8 (checkCode [0x3132, 0x3334, 0x3536, 0x3738]) = 0x29B1 := by decide +kernel

theorem test_default_settings_words :
    Settings.default.words = [0x00FA0064, 0x012C0A8C, 0x016814FB, 0x0032001E] := by decide

/-- The lines of `State.reset`'s board with RESET_N low. -/
def pinsInReset : Pins := ⟨false, 0, Vector.replicate 8 true, true⟩

theorem test_release_begins_a_rewrite :
    (settle (releaseReset 1 (State.blank [] pinsInReset [] 0))).status = State.reset.status := by
  decide +kernel

theorem test_release_settles_at_reset : settle (releaseReset 1 (State.blank [] pinsInReset [] 0)) = State.reset := by
  rw [settle_eq_of_not_ready rfl, test_release_begins_a_rewrite]
  rfl

theorem test_reset_is_a_release : exec (.resetNRelease 1) (State.blank [] pinsInReset [] 0) = .next State.reset := by
  rw [← test_release_settles_at_reset]
  rfl

/-! ## States of the tests -/

/-- The yard of the worked examples: RUN, windows 200-201, 202-204 and 205, nothing waiting. -/
def yard : State :=
  { State.reset with
    decoder := ⟨1, .run, ⟨⟨200, 201⟩, ⟨202, 204⟩, ⟨205, 205⟩⟩⟩
    status := ⟨false, none, none, false, false, 1, false⟩ }

/-- The same part in PASS with no window on. -/
def passYard : State := { yard with decoder := ⟨1, .pass, ⟨.off, .off, .off⟩⟩ }

/-- The same part HALTED. -/
def haltedYard : State := { yard with decoder := { yard.decoder with mode := .halted } }

/-- A state with RESET_N low. -/
def lowYard : State := { yard with pins := { yard.pins with resetN := false } }

/-- A part with latched arguments. -/
def args (s : State) (a b c : Word) : State :=
  { s with mailbox := { s.mailbox with argA := a, argB := b, argC := c } }

/-- Bay 3 holds a diesel trailer of radio 12; `f` changes its entry. -/
def trailer (f : BayEntry → BayEntry) : State :=
  { yard with
    link := { yard.link with tagMap := [⟨12, 3, .tracked, 5, 0, 0⟩] }
    bays :=
      yard.bays.set (3 : BayNo)
        (f { BayEntry.reset 3 with occupied := true, radio := some 12, link := some .tracked, readingHeld := true }) }

/-- The trailer with its defrost record in state `d`. -/
def defrosting (d : DefrostState) (g : Option FeederNo) (timer : Timer) : State :=
  trailer fun e => { e with defrost := { e.defrost with state := d, grantFeeder := g, timer := timer } }

/-- Bay 3 is locked by initiator 1. -/
def lockBay (s : State) : State := { s with access := { s.access with lock := some ⟨1, 3, 7⟩ } }

/-- Every window rule holds of the yard's decoder. -/
theorem windowsValid_of_yard (s : State) (h : s.decoder.memSize = 1)
    (hw : s.decoder.windows = ⟨⟨200, 201⟩, ⟨202, 204⟩, ⟨205, 205⟩⟩) : WindowsValid s := by
  unfold WindowsValid
  rw [h, hw]
  refine ⟨fun n _ => ?_, fun _ n => ?_⟩
  · cases n <;> refine ⟨by decide, by decide, by simp [Window.HasPage, Windows.get, pagesOf], fun k hk p => ?_⟩ <;>
      cases k <;> simp [Window.HasPage, Windows.get] at hk ⊢ <;> omega
  · cases n <;> decide

theorem accepts_of {s : State} (h : s.pins.resetN = true ∧ s.front.outstanding = none)
    (hd : s.haltDue = false := by rfl) : Accepts s := ⟨⟨h.1, hd⟩, h.2⟩

theorem notHolder_of {s : State} (i : Initiator) (h : s.access.lock = none) : NotHolder s i := by
  intro l hl
  rw [h] at hl
  cases hl

theorem open_of {s : State} (i : Initiator) (h : s.pins.resetN = true ∧ s.front.outstanding = none)
    (hl : s.access.lock = none) (hm : s.mailbox.state ≠ .busy) (hd : s.haltDue = false := by rfl) : Open s i :=
  ⟨accepts_of h hd, notHolder_of i hl, hm⟩
/-! ## The queue, the front port and the pins -/

/-- A plain read is outstanding. -/
def reading : State := { yard with front := ⟨some ⟨⟨0, 5, false, .read 1⟩, .plain⟩, none⟩ }

/-- The first burst of an update of bay 3 is under way. -/
def writing : State :=
  { yard with
    arbiter := ⟨.notice, some .record⟩
    bursts := [⟨3, 206896, [1, 2, 3, 4, 5, 6, 7, 8], false⟩] }

/-- A result word burst is under way. -/
def answering : State :=
  { yard with arbiter := ⟨.fetch, some .status⟩, status := { yard.status with presented := some (.result 7) } }

theorem test_OnlyIllFormedCommandsStop_met :
    (Instr.wellFormed .takeFrame = true ∧ Instr.wellFormed (.bayRecordRead 0 0 9) = false)
      ∧ (Instr.wellFormed .yardTick = true ∧ lowYard.pins.resetN = false ∧ movesPin .yardTick = false)
      ∧ (Instr.wellFormed (.run 0) = true ∧ Live reading ∧ reading.front.outstanding ≠ none ∧ requestOf reading (.run 0) ≠ none) :=
  ⟨⟨rfl, rfl⟩, ⟨rfl, rfl, rfl⟩, ⟨rfl, ⟨rfl, rfl⟩, by decide, by decide⟩⟩

theorem test_RowsPresentTheirRequest_met :
    requestOf yard (.halt 1) = some (setupWord yard 1 0 4) ∧ Instr.wellFormed (.halt 1) = true := ⟨rfl, rfl⟩

theorem test_ReleaseOfResetSetsEveryBlock_met : lowYard.pins.resetN = false := rfl

theorem test_ResetFallCutsOneBurst_met :
    lowYard.pins.resetN = false
      ∧ (yard.pins.resetN = true ∧ ∀ q, yard.arbiter.granted = some q → yard.burst q = none)
      ∧ (writing.pins.resetN = true ∧ writing.arbiter.granted = some .record
        ∧ writing.burst .record
          = some (206896, [(15, 1), (15, 2), (15, 3), (15, 4), (15, 5), (15, 6), (15, 7), (15, 8)])
        ∧ writing.mem.wf = true)
      ∧ (answering.pins.resetN = true ∧ answering.arbiter.granted = some .status
        ∧ answering.status.presented = some (.result 7)) :=
  ⟨rfl, ⟨rfl, fun _ h => by cases h⟩, ⟨rfl, rfl, rfl, rfl⟩, rfl, rfl, rfl⟩

/-! ## Front-port requests -/

theorem windowsValid_passYard : WindowsValid passYard := by
  refine ⟨fun n h => ?_, fun h => absurd rfl h⟩
  cases n <;> exact absurd h (by decide)

theorem windowsValid_yard : WindowsValid yard := windowsValid_of_yard yard rfl rfl

/-- A read of the status block, a read of the last word in PASS, a read past the windows, a ring read. -/
theorem test_PlainRequestsPassToMemory_met :
    (Accepts yard ∧ NotHolder yard 0 ∧ WindowsValid yard ∧ Shaped yard ⟨0, 261136, false, .read 8⟩
        ∧ TouchesRole yard ⟨0, 261136, false, .read 8⟩)
      ∧ (Accepts passYard ∧ NotHolder passYard 0 ∧ WindowsValid passYard
        ∧ Shaped passYard ⟨0, 262143, false, .write [(0, 9)]⟩
        ∧ ¬ TouchesRole passYard ⟨0, 262143, false, .write [(0, 9)]⟩ ∧ passYard.decoder.mode = .pass)
      ∧ (∀ a : WordAddr, a = 204799 ∨ a = 210944 ∨ a = 210943 →
        Shaped yard ⟨0, a, false, .read 1⟩ ∧ ¬ TouchesRole yard ⟨0, a, false, .read 1⟩
          ∧ yard.decoder.mode ≠ .pass ∧ ¬ InWindow yard.decoder.windows.inbox a.toNat
          ∧ ¬ InWindow yard.decoder.windows.bays a.toNat
          ∧ (InWindow yard.decoder.windows.ring a.toNat → ∃ n, Access.read 1 = .read n)) := by
  refine ⟨⟨accepts_of ⟨rfl, rfl⟩, notHolder_of 0 rfl, windowsValid_yard, ?_, ?_⟩,
    ⟨accepts_of ⟨rfl, rfl⟩, notHolder_of 0 rfl, windowsValid_passYard, ?_, ?_, rfl⟩, ?_⟩
  · unfold Shaped; decide
  · refine ⟨0, ?_⟩; unfold RoleOffset; decide
  · unfold Shaped; decide
  · unfold TouchesRole RoleOffset; decide
  · intro a ha
    rcases ha with rfl | rfl | rfl <;> unfold Shaped TouchesRole RoleOffset InWindow <;>
      exact ⟨by decide, by decide, by decide, by decide, by decide, fun _ => ⟨1, rfl⟩⟩

/-- Past memory, over a block, locked outside a record, to the Inbox, to the records, to the ring. -/
theorem test_RefusedRequestsAreCounted_met :
    (¬ Shaped yard ⟨0, 262143, false, .read 2⟩ ∧ ¬ Shaped yard ⟨0, 7, true, .read 2⟩)
      ∧ (∀ b, ¬ InRecord yard b 262143) ∧ (∀ b, ¬ InRecord yard b 206847)
      ∧ InWindow haltedYard.decoder.windows.inbox 204800 ∧ InWindow yard.decoder.windows.inbox 206847
      ∧ (InWindow yard.decoder.windows.bays 209408 ∧ ∀ b, ¬ InRecord yard b 209408)
      ∧ (InWindow yard.decoder.windows.bays 206859 ∧ 206859 % 16 < 12)
      ∧ (InWindow yard.decoder.windows.ring 210943 ∧ ∃ ws, Access.write [(15, 1)] = .write ws) := by
  unfold Shaped InRecord InWindow
  exact ⟨by decide, by decide +kernel, by decide +kernel, by decide, by decide, by decide +kernel, by decide, by decide, _, rfl⟩

/-- Two words on the command word, one lane of an argument, the result word, the last status word. -/
theorem test_SetupRoleWritesAreRefused_met :
    ∀ r ∈ [(⟨0, 261120, false, .write [(15, 3), (15, 3)]⟩ : Request), ⟨0, 261121, false, .write [(1, 3)]⟩,
        ⟨0, 261124, false, .write [(15, 3)]⟩, ⟨0, 261155, false, .write [(15, 3)]⟩],
      r.wellFormed = true ∧ Shaped yard r ∧ TouchesRole yard r ∧ r.lock = false := by
  unfold Shaped TouchesRole RoleOffset
  decide

theorem test_InboxFrameIsTakenOrRetried_met :
    Accepts yard ∧ NotHolder yard 2 ∧ WindowsValid yard ∧ yard.decoder.mode = .run
      ∧ (∀ a : WordAddr × RadioAddr, a = (204804, 1) ∨ a = (206844, 511) →
        InWindow yard.decoder.windows.inbox a.1.toNat
          ∧ a.1.toNat = yard.decoder.windows.inbox.base * 1024 + a.2.toNat * 4 ∧ a.2 ≠ 0)
      ∧ yard.inbox.length ≤ 15
      ∧ 16 ≤ ({ yard with inbox := List.replicate 16 ⟨⟨0, 0, 0, 0⟩, 1, 0⟩ } : State).inbox.length := by
  refine ⟨accepts_of ⟨rfl, rfl⟩, notHolder_of 2 rfl, windowsValid_yard, rfl, ?_, by decide, by decide⟩
  rintro a (rfl | rfl) <;> unfold InWindow <;> decide

/-- A read of record 3 is in the table, READY. -/
def readyYard : State :=
  { yard with access := ⟨[⟨⟨0, 206896, 8⟩, .ready [1, 2, 3, 4, 5, 6, 7, 8] 9⟩], none, none⟩ }

/-- The same entry QUEUED. -/
def queuedYard : State := { yard with access := ⟨[⟨⟨0, 206896, 8⟩, .queued⟩], none, none⟩ }

/-- An update of bay 3 is in flight. -/
def updating : State := { yard with bays := yard.bays.set (3 : BayNo) { yard.bay 3 with inFlight := true } }

theorem test_BayRecordReadsAreAnswered_met :
    (Accepts yard ∧ NotHolder yard 0 ∧ WindowsValid yard ∧ InRecord yard 3 206896 ∧ InRecord yard 0 206848
        ∧ InRecord yard 159 209407 ∧ 206896 % 8 + 8 ≤ 8)
      ∧ (∃ l, (lockBay yard).access.lock = some l ∧ l.bay = 3) ∧ NotHolder (lockBay yard) 0
      ∧ (updating.bay 3).inFlight = true
      ∧ readyYard.access.table.find? (fun e => e.key == ⟨0, 206896, 8⟩)
        = some ⟨⟨0, 206896, 8⟩, .ready [1, 2, 3, 4, 5, 6, 7, 8] 9⟩
      ∧ queuedYard.access.table.find? (fun e => e.key == ⟨0, 206896, 8⟩) = some ⟨⟨0, 206896, 8⟩, .queued⟩
      ∧ (∀ e ∈ yard.access.table, e.key ≠ ⟨0, 206896, 8⟩) := by
  refine ⟨⟨accepts_of ⟨rfl, rfl⟩, notHolder_of 0 rfl, windowsValid_yard, ?_, ?_, ?_, by decide⟩, ⟨_, rfl, rfl⟩, ?_,
    by decide +kernel, by decide, by decide, nofun⟩
  · unfold InRecord; decide
  · unfold InRecord; decide
  · unfold InRecord; decide
  · intro l h
    cases h
    decide

theorem test_BayRecordReadsAreAnswered_met_locked :
    (yard.access.lock = none ∧ (yard.bay 3).inFlight = false)
      ∧ (updating.access.lock = none ∧ (updating.bay 3).inFlight = true)
      ∧ ∃ l, (lockBay yard).access.lock = some l ∧ l.holder = 1 ∧ l.bay = 3 ∧ l.holder ≠ 0 ∧ l.bay ≠ 4
          ∧ InRecord (lockBay yard) 3 206896 ∧ InRecord (lockBay yard) 4 206912 :=
  ⟨⟨rfl, rfl⟩, ⟨rfl, by decide +kernel⟩, _, rfl, rfl, rfl, by decide, by decide, by unfold InRecord; decide,
    by unfold InRecord; decide⟩

/-- The last lane of word 15 written, and a word before the written ones. -/
theorem test_SettingsAreMergedAndJudged_met :
    3 + [((8 : Mask), (0xFF000000 : Word))].length ≤ 4 ∧ 3 < 4 ∧ Settings.default.words[3]? = some 0x0032001E
      ∧ ([((8 : Mask), (0xFF000000 : Word))][3 - 3]? = some (8, 0xFF000000) ∧ (8 : Mask).getLsbD 3 = true
        ∧ (8 : Mask).getLsbD 0 = false) ∧ Settings.default.words[0]? = some 0x00FA0064
      ∧ (Settings.default.inRange = true ∧ ({ Settings.default with fuelLow := 19 } : Settings).inRange = false) := by
  decide

/-- Record word 12 out of range and in range, word 15 in range; free, locked by itself and by another, in flight. -/
theorem test_SettingsWriteIsAnswered_met :
    (InRecord yard 3 206908 ∧ 206908 % 16 = 12 + 0 ∧ 206911 % 16 = 12 + 3)
      ∧ ((yard.bay 3).settings.merge 0 [(15, 0x00FA00FA)]).inRange = false
      ∧ ((yard.bay 3).settings.merge 0 [(15, 0x00FA00F9)]).inRange = true
      ∧ ((yard.bay 3).settings.merge 3 [(15, 0x000A0005)]).inRange = true
      ∧ (∃ l, (lockBay yard).access.lock = some l ∧ true = true ∧ l.holder = 1 ∧ l.bay ≠ 4)
      ∧ (∃ l, (lockBay yard).access.lock = some l ∧ l.holder ≠ 0 ∧ (true = true ∨ l.bay = 4))
      ∧ (∀ l, (lockBay yard).access.lock = some l →
        (true = true ∧ l.holder = 1 ∧ l.bay = 3) ∨ (true = false ∧ l.bay ≠ 3))
      ∧ (∀ l, updating.access.lock = some l → (false = true ∧ l.holder = 1 ∧ l.bay = 3) ∨ (false = false ∧ l.bay ≠ 3))
      ∧ (updating.bay 3).inFlight = true := by
  refine ⟨by unfold InRecord; decide, by decide +kernel, by decide +kernel, by decide +kernel,
    ⟨_, rfl, rfl, rfl, by decide⟩, ⟨_, rfl, by decide, .inl rfl⟩, ?_, nofun, by decide +kernel⟩
  intro l h
  cases h
  exact .inl ⟨rfl, rfl, rfl⟩

/-- The holder of the lock sends a request without the lock flag; the bay has nothing set aside, and the feeder no room. -/
theorem test_HolderReleasesTheLockFirst_met :
    (Accepts (lockBay yard) ∧ ∃ l, (lockBay yard).access.lock = some l ∧ l.holder = 1)
      ∧ (let s := { lockBay yard with feeders := yard.feeders.set 0 { yard.feeder 0 with capacity := 0 } }
        (s.bay 3).waiting = [] ∧ (s.bay 3).held = [] ∧ (s.bay 3).deferred = none
          ∧ s.mailbox.progress ≠ .awaitsUnlock 3
          ∧ (s.feeder (s.bay 3).feeder).capacity
            ≤ (s.feeder (s.bay 3).feeder).grants.length + (s.feeder (s.bay 3).feeder).selfCount) :=
  ⟨⟨accepts_of ⟨rfl, rfl⟩, _, rfl, rfl⟩, by decide +kernel, by decide +kernel, by decide +kernel, by decide, by decide +kernel⟩

/-! ## The setup area -/

/-- The mailbox is BUSY with a RUN command. -/
def busyYard : State := { yard with mailbox := { yard.mailbox with state := .busy, current := some ⟨3, 0, 0, 0⟩ } }

/-- The mailbox is DONE. -/
def doneYard : State := { yard with mailbox := { yard.mailbox with state := .done } }

theorem test_ArgumentAndZeroWordsAreAnswered_met :
    (Accepts busyYard ∧ NotHolder busyYard 0 ∧ busyYard.mailbox.state = .busy)
      ∧ (Accepts yard ∧ NotHolder yard 0 ∧ yard.mailbox.state ≠ .busy ∧ yard.mailbox.state = .idle)
      ∧ (Accepts doneYard ∧ NotHolder doneYard 0 ∧ doneYard.mailbox.state = .done) :=
  ⟨⟨accepts_of ⟨rfl, rfl⟩, notHolder_of 0 rfl, rfl⟩, ⟨accepts_of ⟨rfl, rfl⟩, notHolder_of 0 rfl, by decide, rfl⟩,
    ⟨accepts_of ⟨rfl, rfl⟩, notHolder_of 0 rfl, rfl⟩⟩

/-- Five entries wait from slot 254 on. -/
def ringYard : State := { yard with ring := { yard.ring with consumer := 254, producer := 3 } }

/-- The producer, the consumer, one past the producer, 256. -/
theorem test_ConsumerIndexWriteIsAnswered_met :
    (Accepts ringYard ∧ NotHolder ringYard 0)
      ∧ (∀ v : Word, v = 3 ∨ v = 254 →
        v.toNat ≤ 255 ∧ (v.setWidth 8 - ringYard.ring.consumer).toNat
          ≤ (ringYard.ring.producer - ringYard.ring.consumer).toNat)
      ∧ (255 < (256 : Word).toNat
        ∧ (ringYard.ring.producer - ringYard.ring.consumer).toNat
          < ((4 : Word).setWidth 8 - ringYard.ring.consumer).toNat) := by
  refine ⟨⟨accepts_of ⟨rfl, rfl⟩, notHolder_of 0 rfl⟩, ?_, by decide⟩
  rintro v (rfl | rfl) <;> decide

theorem test_BusyMailboxRetriesCommandWords_met :
    Accepts busyYard ∧ NotHolder busyYard 0 ∧ busyYard.mailbox.state = .busy
      ∧ requestOf busyYard (.commandWordZero 0) = some (setupWord busyYard 0 0 0)
      ∧ requestOf busyYard (.unknownCommand 0 15) = some (setupWord busyYard 0 0 15)
      ∧ Instr.wellFormed (.unknownCommand 0 15) = true :=
  ⟨accepts_of ⟨rfl, rfl⟩, notHolder_of 0 rfl, rfl, rfl, rfl, rfl⟩

/-! ## Commands that complete at once -/

/-- The windows of the yard in PASS. -/
def passWindows : State := { passYard with decoder := { yard.decoder with mode := .pass } }

/-- A mode in which SET_WINDOW is not taken; an unknown window; a window turned off; past memory, too many pages, the
setup page, a page of another window; the last page a window may have. -/
theorem test_SetWindowFollowsItsTable_met :
    (Open yard 0 ∧ yard.decoder.mode ≠ .pass) ∧ (Open (args passYard 3 0 0) 0 ∧ 2 < (3 : Word).toNat)
      ∧ (Open (args passWindows 2 1 0) 0 ∧ (0 : Word).toNat < (1 : Word).toNat)
      ∧ pagesOf passYard.decoder.memSize ≤ (256 : Word).toNat ∧ 1 < (204 : Word).toNat - (203 : Word).toNat + 1
      ∧ ((255 : Word).toNat ≤ pagesOf passYard.decoder.memSize - 1
        ∧ pagesOf passYard.decoder.memSize - 1 ≤ (255 : Word).toNat)
      ∧ (∃ k, k ≠ .ring ∧ ∃ p, (204 : Word).toNat ≤ p ∧ p ≤ (204 : Word).toNat
        ∧ (passWindows.decoder.windows.get k).HasPage p)
      ∧ ((254 : Word).toNat < pagesOf passWindows.decoder.memSize
        ∧ ¬ ((254 : Word).toNat ≤ pagesOf passWindows.decoder.memSize - 1
          ∧ pagesOf passWindows.decoder.memSize - 1 ≤ (254 : Word).toNat)
        ∧ ∀ k, k ≠ .ring → ∀ p, (254 : Word).toNat ≤ p → p ≤ (254 : Word).toNat →
          ¬ (passWindows.decoder.windows.get k).HasPage p) := by
  refine ⟨⟨open_of 0 ⟨rfl, rfl⟩ rfl (by decide), by decide⟩, ⟨open_of 0 ⟨rfl, rfl⟩ rfl (by decide), by decide⟩,
    ⟨open_of 0 ⟨rfl, rfl⟩ rfl (by decide), by decide⟩, by decide, by decide, by decide,
    ⟨.bays, by decide, 204, by decide, by decide, by decide, by decide⟩, by decide, by decide, ?_⟩
  intro k hk p h1 h2
  cases k <;> simp [passWindows, yard, Windows.get, Window.HasPage] at h1 h2 hk ⊢ <;> omega

/-- No parameter 12; both ends of parameter 0 and the values beside them. -/
theorem test_TimingClockAndCountersAreSet_met :
    Open (args yard 12 0 0) 0 ∧ paramRange (12 : Word).toNat = none
      ∧ paramRange (0 : Word).toNat = some (60, 3600) ∧ (59 : Word).toNat < 60 ∧ 3600 < (3601 : Word).toNat
      ∧ (60 ≤ (60 : Word).toNat ∧ (3600 : Word).toNat ≤ 3600) ∧ paramRange (11 : Word).toNat = some (1, 7) :=
  ⟨open_of 0 ⟨rfl, rfl⟩ rfl (by decide), rfl, rfl, by decide, by decide, by decide, rfl⟩

/-- A HALT waits for an update to end, and may complete. -/
def haltingYard : State :=
  { haltedYard with
    mailbox := { yard.mailbox with state := .busy, current := some ⟨4, 0, 0, 0⟩, progress := .halting } }

theorem test_RunAndHaltFollowTheirTable_met :
    (Open passWindows 0 ∧ passWindows.decoder.mode = .pass
        ∧ ∀ n, (passWindows.decoder.windows.get n).base ≤ (passWindows.decoder.windows.get n).limit)
      ∧ (Open passYard 0 ∧ ∃ n, (passYard.decoder.windows.get n).limit < (passYard.decoder.windows.get n).base)
      ∧ (Open yard 0 ∧ yard.decoder.mode = .run ∧ ∀ b, (yard.bay b).inFlight = false)
      ∧ (Open updating 0 ∧ updating.decoder.mode = .run ∧ ∃ b, (updating.bay b).inFlight = true)
      ∧ (Open haltedYard 0 ∧ haltedYard.decoder.mode = .halted)
      ∧ (haltingYard.pins.resetN = true ∧ haltingYard.mailbox.progress = .halting
        ∧ haltingYard.mailbox.current = some ⟨4, 0, 0, 0⟩ ∧ ∀ b, (haltingYard.bay b).inFlight = false)
      ∧ (Instr.wellFormed .takeFrame = true ∧ Instr.takeFrame ≠ .resetNFall ∧ ∀ m, Instr.takeFrame ≠ .resetNRelease m)
      ∧ haltingYard.pending = []
      ∧ (yard.mailbox.progress ≠ .halting ∧ ∃ b, (updating.bay b).inFlight = true) :=
  ⟨⟨open_of 0 ⟨rfl, rfl⟩ rfl (by decide), rfl, fun n => by cases n <;> decide⟩,
    ⟨open_of 0 ⟨rfl, rfl⟩ rfl (by decide), .inbox, by decide⟩,
    ⟨open_of 0 ⟨rfl, rfl⟩ rfl (by decide), rfl, by decide +kernel⟩,
    ⟨open_of 0 ⟨rfl, rfl⟩ rfl (by decide), rfl, 3, by decide +kernel⟩,
    ⟨open_of 0 ⟨rfl, rfl⟩ rfl (by decide), rfl⟩, ⟨rfl, rfl, rfl, by decide +kernel⟩,
    ⟨rfl, nofun, nofun⟩, rfl, by decide, 3, by decide +kernel⟩

/-- Radios 0 and 512 are not served by two pages, 1 and 511 are. -/
theorem test_InjectAndSetFeederFollowTheirTables_met :
    (Open passYard 0 ∧ passYard.decoder.mode = .pass) ∧ (Open (args yard 511 3 0) 0 ∧ yard.decoder.mode ≠ .pass)
      ∧ yard.decoder.windows.servesRadio (0 : Word).toNat = false
      ∧ yard.decoder.windows.servesRadio (512 : Word).toNat = false
      ∧ yard.decoder.windows.servesRadio (1 : Word).toNat = true
      ∧ yard.decoder.windows.servesRadio (511 : Word).toNat = true
      ∧ ((3 : Word) = 1 ∧ InjectKind.drop = .badCheck ∨ (3 : Word) = 2 ∧ InjectKind.drop = .skip
        ∨ (3 : Word) = 3 ∧ InjectKind.drop = .drop) ∧ 3 < (4 : Word).toNat :=
  ⟨⟨open_of 0 ⟨rfl, rfl⟩ rfl (by decide), rfl⟩, ⟨open_of 0 ⟨rfl, rfl⟩ rfl (by decide), by decide⟩, by decide, by decide,
    by decide, by decide, by decide, by decide⟩

theorem test_InjectAndSetFeederFollowTheirTables_met_feeder :
    Open (args yard 7 8 0) 0 ∧ (7 < (8 : Word).toNat ∨ 8 < (0 : Word).toNat) ∧ (7 < (0 : Word).toNat ∨ 8 < (9 : Word).toNat)
      ∧ ((7 : Word).toNat = (7 : FeederNo).val ∧ (8 : Word).toNat ≤ 8)
      ∧ (2 : Word).toNat ≤ (yard.feeder 7).capacity ∧ (yard.feeder 7).capacity < (3 : Word).toNat :=
  ⟨open_of 0 ⟨rfl, rfl⟩ rfl (by decide), by decide, by decide, by decide, by decide +kernel, by decide +kernel⟩

/-- Bay 3 in the middle of the order list, and not in it; the last LINK source. -/
theorem test_SourcesKeepTheirRules_met :
    (639 = 4 * (159 : BayNo).val + 3 ∧ 639 / 4 = (159 : BayNo).val)
      ∧ ([(1, 5), (3, 6), (2, 7)] : List (BayNo × Time)) = [(1, 5)] ++ (3, 6) :: [(2, 7)]
      ∧ (∀ x ∈ ([(1, 5)] ++ [(2, 7)] : List (BayNo × Time)), x.1 ≠ 3) :=
  ⟨⟨rfl, rfl⟩, rfl, by simp⟩

/-! ## Bay commands -/

/-- PASS; bay 160 and radio 512; a kind, a flag and a feeder out of range; no tag of radio 13. -/
theorem test_CommandsRefusedAtOnce_met :
    ((15 : Word) ≠ 0 ∧ 14 < (15 : Word).toNat) ∧ (Open passYard 0 ∧ passYard.decoder.mode = .pass)
      ∧ (Open (args yard 0 0 2) 0 ∧ yard.decoder.mode ≠ .pass)
      ∧ yard.decoder.windows.servesRadio (512 : Word).toNat = false
      ∧ yard.decoder.windows.servesBay (160 : Word).toNat = false ∧ 1 < (2 : Word).toNat
      ∧ (∀ t ∈ (trailer id).link.tagMap, t.radio.toNat ≠ (13 : Word).toNat) ∧ 7 < (8 : Word).toNat :=
  ⟨by decide, ⟨open_of 0 ⟨rfl, rfl⟩ rfl (by decide), rfl⟩, ⟨open_of 0 ⟨rfl, rfl⟩ rfl (by decide), by decide⟩, by decide,
    by decide, by decide, by decide, by decide⟩

/-- Every bay is served by the yard's windows. -/
theorem served_of_yard {s : State} (b : BayNo) (h : s.decoder.windows = ⟨⟨200, 201⟩, ⟨202, 204⟩, ⟨205, 205⟩⟩) :
    s.decoder.windows.servesBay b.val = true := by
  rw [h]
  revert b
  decide +kernel

/-- Each bay command names its bay. -/
theorem test_bay_commands_name_their_bay :
    BayCommand (args yard 511 159 1) 0 (.mapTag 0) 6 159 ∧ BayCommand (args (trailer id) 12 0 0) 0 (.unmapTag 0) 7 3
      ∧ BayCommand (args yard 0 1 0) 0 (.setLoading 0) 8 0 ∧ BayCommand (args yard 159 0 0) 0 (.forceDefrost 0) 9 159
      ∧ BayCommand (args yard 3 0 0) 0 (.cancelDefrost 0) 10 3 ∧ BayCommand (args yard 3 7 0) 0 (.assignFeeder 0) 12 3 :=
  ⟨.mapTag 159 (by decide) rfl (served_of_yard 159 rfl) (by decide), .unmapTag ⟨12, 3, .tracked, 5, 0, 0⟩ rfl, .setLoading 0 rfl (served_of_yard 0 rfl) (by decide),
    .forceDefrost 159 rfl (served_of_yard 159 rfl), .cancelDefrost 3 rfl (served_of_yard 3 rfl), .assignFeeder 3 rfl (served_of_yard 3 rfl) (by decide)⟩

/-- A free bay is one with nothing in flight, waiting, held or deferred, and no lock. -/
theorem freeBay_of {s : State} {b : BayNo}
    (h : (s.bay b).inFlight = false ∧ (s.bay b).waiting = [] ∧ (s.bay b).held = [] ∧ (s.bay b).deferred = none
      ∧ s.locked b = false) : FreeBay s b := h

/-- A locked bay, one with an update in flight, and free bays whose state does not take the command. -/
theorem test_BayCommandsWaitOrAreRefused_met :
    (Open (args (lockBay yard) 3 0 0) 0 ∧ BayCommand (args (lockBay yard) 3 0 0) 0 (.forceDefrost 0) 9 3
        ∧ (lockBay yard).locked 3 = true)
      ∧ (Open (args updating 3 0 0) 0 ∧ BayCommand (args updating 3 0 0) 0 (.forceDefrost 0) 9 3
        ∧ updating.locked 3 = false ∧ (updating.bay 3).inFlight = true)
      ∧ FreeBay (args yard 3 0 0) 3 ∧ (yard.bay 3).occupied = false
      ∧ FreeBay (args (defrosting .due none .stopped) 3 0 0) 3
      ∧ (((defrosting .due none .stopped).bay 3).occupied = true
        ∧ ((defrosting .due none .stopped).bay 3).defrost.state ≠ .idle
        ∧ ((defrosting .due none .stopped).bay 3).defrost.state ≠ .draining)
      ∧ ((defrosting .stopping none .stopped).bay 3).defrost.state = .stopping
      ∧ (∃ t ∈ (trailer id).link.tagMap, t.radio = (12 : Word).setWidth 10) :=
  ⟨⟨⟨accepts_of ⟨rfl, rfl⟩, by intro l h; cases h; decide, by decide⟩, .forceDefrost 3 rfl (served_of_yard 3 rfl), rfl⟩,
    ⟨open_of 0 ⟨rfl, rfl⟩ rfl (by decide), .forceDefrost 3 rfl (served_of_yard 3 rfl), rfl, by decide +kernel⟩,
    freeBay_of (by decide +kernel), by decide +kernel, freeBay_of (by decide +kernel), by decide +kernel,
    by decide +kernel, ⟨_, List.mem_singleton.2 rfl, by decide⟩⟩

/-- Radio 12 is on the Unknown Tag List. -/
def listed : State :=
  { yard with link := { yard.link with unknown := yard.link.unknown.set 4 (some ⟨12, 9, 1, 2⟩) } }

theorem test_MapTagAndUnmapTagBeginTheirUpdates_met :
    Open (args listed 12 3 1) 0 ∧ listed.decoder.mode ≠ .pass
      ∧ BayCommand (args listed 12 3 1) 0 (.mapTag 0) 6 3 ∧ FreeBay (args listed 12 3 1) 3
      ∧ (listed.bay 3).occupied = false ∧ (∀ t ∈ listed.link.tagMap, t.radio ≠ 12)
      ∧ listed.link.listedAt 12 = some 4 ∧ yard.link.listedAt 12 = none :=
  ⟨open_of 0 ⟨rfl, rfl⟩ rfl (by decide), by decide, .mapTag 3 (by decide) rfl (served_of_yard 3 rfl) (by decide),
    freeBay_of (by decide +kernel), by decide +kernel, nofun, by decide +kernel, by decide +kernel⟩

/-- One state for each row of the table of R77. -/
theorem test_MapTagAndUnmapTagBeginTheirUpdates_met_unmap :
    ∀ d ∈ [DefrostState.idle, .due, .ordered, .running, .stopping, .draining, .self],
      Open (args (defrosting d (some 0) .stopped) 12 0 0) 0
        ∧ BayCommand (args (defrosting d (some 0) .stopped) 12 0 0) 0 (.unmapTag 0) 7 3
        ∧ FreeBay (args (defrosting d (some 0) .stopped) 12 0 0) 3
        ∧ ((defrosting d (some 0) .stopped).bay 3).occupied = true
        ∧ ((defrosting d (some 0) .stopped).bay 3).defrost.state = d := by
  have key : ∀ d : DefrostState, ((args (defrosting d (some 0) .stopped) 12 0 0).bay 3)
      = { BayEntry.reset 3 with
          occupied := true, radio := some 12, link := some .tracked, readingHeld := true
          defrost := { (BayEntry.reset 3).defrost with state := d, grantFeeder := some 0, timer := .stopped } } :=
    fun d => by
      show (yard.bays.set 3 _)[3] = _
      simp [BayEntry.reset]
  intro d _
  refine ⟨open_of 0 ⟨rfl, rfl⟩ rfl nofun, .unmapTag ⟨12, 3, .tracked, 5, 0, 0⟩ rfl, freeBay_of ?_, ?_, ?_⟩
  · rw [key]
    exact ⟨rfl, rfl, rfl, rfl, rfl⟩
  · exact congrArg BayEntry.occupied (key d)
  · exact congrArg (fun e => e.defrost.state) (key d)

/-- Bay 3 with the events `evs` waiting. -/
def waits (evs : List BayEvent) : State := trailer fun e => { e with waiting := evs }

/-- A frame for the trailer, and one for a radio the bay does not hold. -/
def handed (radio : RadioAddr) : HandedFrame := ⟨⟨0, 0, 0, 0⟩, 6, radio, 7, 3⟩

/-- Each kind of event at the head of a free bay's waiting events; a frame that fits the bay and one that does not. -/
theorem test_WaitingEventsAreJudgedAtTheirTurn_met :
    (∀ evs : List BayEvent, ((waits evs).bay 3).inFlight = false ∧ (waits evs).locked 3 = false
        ∧ ((waits evs).bay 3).waiting = evs)
      ∧ (((trailer id).bay 3).occupied = true ∧ ((trailer id).bay 3).radio = some (handed 12).radio)
      ∧ ((trailer id).bay 3).radio ≠ some (handed 13).radio
      ∧ ((updating.bay 3).inFlight = true ∧ (lockBay yard).locked 3 = true ∧ (yard.bay 3).waiting = [])
      ∧ (DefrostState.ordered ≠ .idle ∧ DefrostState.ordered ≠ .due ∧ DefrostState.ordered ≠ .self) := by
  have key : ∀ evs : List BayEvent, (waits evs).bay 3
      = { BayEntry.reset 3 with
          occupied := true, radio := some 12, link := some .tracked, readingHeld := true, waiting := evs } :=
    fun evs => by
      show (yard.bays.set 3 _)[3] = _
      simp [BayEntry.reset]
  refine ⟨fun evs => ⟨?_, rfl, ?_⟩, by decide +kernel, by decide +kernel, by decide +kernel, by decide⟩ <;>
    rw [key] <;> rfl

/-- The command `cmd` at the head of bay 3's waiting events, `more` behind it, in the entry that `f` makes. -/
def atTurn (cmd : Command) (more : List BayEvent) (f : BayEntry → BayEntry) : State :=
  { trailer fun e => { f e with waiting := .command :: more } with
    clock := ⟨400, 0⟩
    mailbox := { yard.mailbox with state := .busy, current := some cmd, progress := .awaitsTurn 3 } }

/-- The trailer's entry with the defrost state, the pending order and the door that a case asks for. -/
def entryAs (occ : Bool) (d : DefrostState) (p : Option PendingOrder) (door : DoorState) (since : Time) (loading : Bool)
    (e : BayEntry) : BayEntry :=
  { e with
    occupied := occ, loading := loading, door := { e.door with state := door, since := since }
    defrost := { e.defrost with state := d, pending := p } }

/-- Every command at its turn at a free, unlocked bay: VACANT and OCCUPIED, in each defrost state, with each pending order,
with the door as each case of SET_LOADING finds it at, before and past its limits; a radio that is mapped and one that is
not, on the Unknown Tag List or not. -/
theorem test_WaitingEventsAreJudgedAtTheirTurn_met_command :
    (∀ (cmd : Command) (more : List BayEvent) (occ : Bool) (d : DefrostState) (p : Option PendingOrder) (door : DoorState)
        (since : Time) (loading : Bool),
        let s := atTurn cmd more (entryAs occ d p door since loading)
        (s.bay 3).inFlight = false ∧ s.locked 3 = false ∧ (s.bay 3).waiting = .command :: more
          ∧ s.mailbox.current = some cmd ∧ (s.bay 3).occupied = occ ∧ (s.bay 3).defrost.state = d
          ∧ (s.bay 3).defrost.pending = p ∧ (s.bay 3).door.state = door ∧ (s.bay 3).loading = loading
          ∧ (s.bay 3).settings.doorLimit.toNat = 300 ∧ (s.bay 3).settings.loadingDoorLimit.toNat = 2700
          ∧ (s.clock.time - (s.bay 3).door.since).toNat = (400 - since).toNat
          ∧ (∀ t ∈ s.link.tagMap, t.radio ≠ 13) ∧ (∃ t ∈ s.link.tagMap, t.radio = 12)
          ∧ s.link.listedAt 13 = none)
      ∧ ((400 : Time) - 100).toNat = 300 ∧ ((400 : Time) - 101).toNat < 300
      ∧ listed.link.listedAt 12 = some 4 := by
  have key : ∀ (cmd : Command) (more : List BayEvent) (f : BayEntry → BayEntry), (atTurn cmd more f).bay 3
      = { f { BayEntry.reset 3 with
              occupied := true, radio := some 12, link := some .tracked, readingHeld := true } with
          waiting := .command :: more } :=
    fun cmd more f => by
      show (yard.bays.set 3 _)[3] = _
      simp
  refine ⟨fun cmd more occ d p door since loading => ?_, by decide, by decide, by decide +kernel⟩
  intro s
  have hb : s.bay 3 = _ := key cmd more (entryAs occ d p door since loading)
  have hm : s.link.tagMap = [⟨12, 3, .tracked, 5, 0, 0⟩] := rfl
  have hf : s.link.listedAt 13 = none := by
    show yard.link.listedAt 13 = none
    decide +kernel
  refine ⟨?_, rfl, ?_, rfl, ?_, ?_, ?_, ?_, ?_, ?_, ?_, ?_, by rw [hm]; decide, ⟨_, hm ▸ List.mem_singleton.2 rfl, rfl⟩, hf⟩ <;>
    rw [hb] <;> rfl

/-- The trailer's door is open since 100, at yard time `now`. -/
def doorAt (now : Time) (state : DoorState) (loading : Bool) : State :=
  { (trailer fun e => { e with door := ⟨state, 100, 1, .running 5 300⟩, loading := loading }) with clock := ⟨now, 0⟩ }

/-- The flag as it was; an open door past the new limit, at it, and before it; a long-open door back under it. -/
theorem test_SetLoadingBeginsItsUpdate_met :
    (Open (args (doorAt 400 .isOpen true) 3 0 0) 0 ∧ BayCommand (args (doorAt 400 .isOpen true) 3 0 0) 0 (.setLoading 0) 8 3
        ∧ FreeBay (args (doorAt 400 .isOpen true) 3 0 0) 3 ∧ ((doorAt 400 .isOpen true).bay 3).occupied = true
        ∧ ((doorAt 400 .isOpen true).bay 3).settings.doorLimit.toNat = 300
        ∧ ((400 : Time) - ((doorAt 400 .isOpen true).bay 3).door.since).toNat = 300
        ∧ ((doorAt 400 .isOpen true).bay 3).loading = true)
      ∧ ((399 : Time) - ((doorAt 399 .isOpen true).bay 3).door.since).toNat < 300
      ∧ (((doorAt 2799 .openLong false).bay 3).door.state = .openLong
        ∧ ((2799 : Time) - ((doorAt 2799 .openLong false).bay 3).door.since).toNat < 2700
        ∧ ((doorAt 2799 .openLong false).bay 3).settings.loadingDoorLimit.toNat = 2700) :=
  ⟨⟨open_of 0 ⟨rfl, rfl⟩ rfl (by decide), .setLoading 3 rfl (served_of_yard 3 rfl) (by decide), freeBay_of (by decide +kernel),
      by decide +kernel, by decide +kernel, by decide +kernel, by decide +kernel⟩,
    by decide +kernel, by decide +kernel, by decide +kernel, by decide +kernel⟩

/-- The three ways power is routed; both commands on IDLE and DRAINING bays. -/
theorem test_DefrostIsForcedAndFeedersAssigned_met :
    (∀ d ∈ [DefrostState.idle, .draining],
        Open (args (defrosting d none .stopped) 3 7 0) 0
          ∧ BayCommand (args (defrosting d none .stopped) 3 7 0) 0 (.forceDefrost 0) 9 3
          ∧ BayCommand (args (defrosting d none .stopped) 3 7 0) 0 (.assignFeeder 0) 12 3)
      ∧ (FreeBay (args (defrosting .idle none .stopped) 3 7 0) 3
        ∧ FreeBay (args (defrosting .draining none .stopped) 3 7 0) 3
        ∧ ((defrosting .draining none .stopped).bay 3).defrost.state = .draining)
      ∧ ∀ (e : BayEntry) (q : Sources), e.readingHeld = true →
        (e.reading.shorePower = true →
            Routed 180 9 3 e q { e with defrost := { e.defrost with reason := .queued } } [.joinQueue e.feeder 9] q)
          ∧ (e.reading.shorePower = false → e.kind = .electric →
            Routed 180 9 3 e q { e with defrost := { e.defrost with reason := .held } } [] q)
          ∧ (e.reading.shorePower = false → e.kind = .diesel → e.fuel.state = .normal →
            ∃ e' q', Routed 180 9 3 e q e' [] q') := by
  refine ⟨fun d _ => ⟨open_of 0 ⟨rfl, rfl⟩ rfl nofun, .forceDefrost 3 rfl (served_of_yard 3 rfl),
      .assignFeeder 3 rfl (served_of_yard 3 rfl) (Nat.le_refl 7)⟩,
    ⟨freeBay_of (by decide +kernel), freeBay_of (by decide +kernel), by decide +kernel⟩, fun e q h => ⟨fun hs => ?_, fun hs hk => ?_, fun hs hk hn => ?_⟩⟩
  · exact .queued h hs
  · exact .held (.inr ⟨hs, .inl (by rw [hk]; decide)⟩)
  · exact ⟨_, _, .engine h hs hk hn⟩

theorem test_CancelDefrostFollowsItsTable_met :
    ∀ d ∈ [DefrostState.due, .ordered, .running, .self],
      Open (args (defrosting d none .stopped) 3 0 0) 0
        ∧ BayCommand (args (defrosting d none .stopped) 3 0 0) 0 (.cancelDefrost 0) 10 3
        ∧ FreeBay (args (defrosting d none .stopped) 3 0 0) 3
        ∧ ((defrosting d none .stopped).bay 3).occupied = true
        ∧ ((defrosting d none .stopped).bay 3).defrost.state = d := by
  intro d hd
  refine ⟨open_of 0 ⟨rfl, rfl⟩ rfl nofun, .cancelDefrost 3 rfl (served_of_yard 3 rfl), freeBay_of ?_, ?_, ?_⟩ <;>
    (simp only [List.mem_cons, List.not_mem_nil, or_false] at hd; rcases hd with rfl | rfl | rfl | rfl <;> decide +kernel)

/-! ## The memory port -/

/-- The search starts at the requester, and wraps round to it past four that do not present. -/
theorem test_PortGrantIsRoundRobin_met :
    (Live reading ∧ reading.arbiter.granted = none ∧ reading.presents .passThrough = true
        ∧ [Requester.passThrough, .record, .notice, .status, .fetch] = [] ++ .passThrough :: [.record, .notice, .status, .fetch])
      ∧ ([Requester.record, .notice, .status, .fetch, .passThrough] = [.record, .notice, .status, .fetch] ++ .passThrough :: []
        ∧ ∀ p ∈ [Requester.record, .notice, .status, .fetch], reading.presents p = false)
      ∧ (Live writing ∧ writing.arbiter.granted ≠ none ∧ writing.arbiter.granted ≠ some .passThrough)
      ∧ (Live yard ∧ ∀ q, yard.presents q = false) :=
  ⟨⟨⟨rfl, rfl⟩, rfl, rfl, rfl⟩, ⟨rfl, by decide⟩, ⟨⟨rfl, rfl⟩, by decide, by decide⟩, ⟨rfl, rfl⟩, fun q => by cases q <;> decide⟩

/-- The request `r` is outstanding on path `p` and its burst is under way. -/
def served (r : Request) (p : Path) : State :=
  { yard with front := ⟨some ⟨r, p⟩, none⟩, arbiter := ⟨.record, some .passThrough⟩ }

theorem test_PassThroughBurstCompletes_met :
    yard.mem.wf = true
      ∧ ∀ (r : Request) (p : Path), Live (served r p)
        ∧ (served r p).arbiter.granted = some .passThrough ∧ (served r p).front.outstanding = some ⟨r, p⟩ :=
  ⟨rfl, fun _ _ => ⟨⟨rfl, rfl⟩, rfl, rfl⟩⟩

/-- A read of record 3 whose burst is under way, with an update of the bay in flight. -/
def overtakenRead : State :=
  { served ⟨0, 206896, false, .read 8⟩ (.bayRead 3 true) with bays := updating.bays }

theorem test_FetchesAndPassedReadsComplete_met_read :
    (Live overtakenRead ∧ overtakenRead.arbiter.granted = some .passThrough
        ∧ overtakenRead.front.outstanding = some ⟨⟨0, 206896, false, .read 8⟩, .bayRead 3 true⟩
        ∧ (overtakenRead.bay 3).inFlight = true)
      ∧ ((served ⟨0, 206896, false, .read 8⟩ (.bayRead 3 true)).bay 3).inFlight = false :=
  ⟨⟨⟨rfl, rfl⟩, rfl, rfl, by decide +kernel⟩, by decide +kernel⟩

/-- The record of bay 3 after RESET_N, with its check code behind the 23 half-words it covers. -/
theorem test_BayRecordHoldsItsLayout_met :
    ((BayEntry.reset 3).recordWords 3)[0]? = some (0x03180000 ||| ((BayEntry.reset 3).recordCode 3).setWidth 32)
      ∧ checkCode ((BayEntry.reset 3).headHalf 3 :: (BayEntry.reset 3).bodyWords.flatMap (fun w => [highHalf w, lowHalf w])
          ++ [(BayEntry.reset 3).recordCode 3]) = 0
      ∧ ((BayEntry.reset 3).defrost.attempts ≤ 7 ∧ (BayEntry.reset 3).defrost.iceCount ≤ 8
        ∧ (BayEntry.reset 3).defrost.timer = .stopped) := by
  decide +kernel

/-- The last burst of bay 3's update is under way; `p` is where the current command stands. -/
def ending (p : Progress) : State :=
  { updating with
    arbiter := ⟨.notice, some .record⟩
    bursts := [⟨3, 206904, [1, 2, 3, 4], true⟩]
    mailbox := { yard.mailbox with state := .busy, current := some ⟨9, 3, 0, 0⟩, progress := p } }

theorem test_RecordBurstCompletes_met :
    (writing.arbiter.granted = some .record ∧ ∃ x rest, writing.bursts = x :: rest ∧ x.ends = false)
      ∧ (∃ x rest, (ending .none).bursts = x :: rest ∧ x.ends = true ∧ (ending .none).mailbox.progress ≠ .updating x.bay)
      ∧ (∃ x rest, (ending (.updating 3)).bursts = x :: rest ∧ x.ends = true
        ∧ (ending (.updating 3)).mailbox.progress = .updating x.bay
        ∧ (ending (.updating 3)).mailbox.current = some ⟨9, 3, 0, 0⟩)
      ∧ (Live writing ∧ Live (ending .none) ∧ Live (ending (.updating 3))) :=
  ⟨⟨rfl, _, _, rfl, rfl⟩, ⟨_, _, rfl, rfl, by decide⟩, ⟨_, _, rfl, rfl, rfl, rfl⟩, ⟨rfl, rfl⟩, ⟨rfl, rfl⟩, rfl, rfl⟩

theorem test_NoticeBurstAdvancesTheProducer_met :
    ∃ s : State, Live s ∧ s.arbiter.granted = some .notice ∧ s.ring.inFlight = some [1, 2, 3, 4] :=
  ⟨{ yard with arbiter := ⟨.status, some .notice⟩, ring := { yard.ring with inFlight := some [1, 2, 3, 4] } },
    ⟨rfl, rfl⟩, rfl, rfl⟩

/-- Bursts 1 and 3 of a rewrite and a result word. -/
theorem test_StatusBurstCompletes_met :
    ∀ b : StatusBurst, ∃ s : State, Live s ∧ s.arbiter.granted = some .status
      ∧ s.status.presented = some b :=
  fun b =>
    ⟨{ yard with arbiter := ⟨.fetch, some .status⟩, status := { yard.status with presented := some b, rewrite := some 1 } },
      ⟨rfl, rfl⟩, rfl, rfl⟩

theorem test_FetchesAndPassedReadsComplete_met :
    (∃ s : State, Live s ∧ s.arbiter.granted = some .fetch ∧ s.access.fetch = some ⟨⟨0, 206896, 8⟩, false⟩)
      ∧ (queuedYard.access.fetch = none
        ∧ queuedYard.access.table = [] ++ (⟨⟨0, 206896, 8⟩, .queued⟩ : DelayedEntry) :: []
        ∧ Fetchable queuedYard ⟨⟨0, 206896, 8⟩, .queued⟩)
      ∧ (readyYard.access.fetch = none ∧ ∀ e ∈ readyYard.access.table, ¬ Fetchable readyYard e) := by
  refine ⟨⟨{ queuedYard with
      arbiter := ⟨.passThrough, some .fetch⟩
      access := { queuedYard.access with fetch := some ⟨⟨0, 206896, 8⟩, false⟩ } }, ⟨rfl, rfl⟩, rfl, rfl⟩,
    ⟨rfl, rfl, rfl, ?_⟩, rfl, ?_⟩
  · intro b _
    show (yard.bay b).inFlight = false
    revert b
    decide +kernel
  · intro e he hf
    rw [show readyYard.access.table = [⟨⟨0, 206896, 8⟩, .ready [1, 2, 3, 4, 5, 6, 7, 8] 9⟩] from rfl,
      List.mem_singleton] at he
    rw [he] at hf
    exact absurd hf.1 nofun

/-! ## Frames -/

/-- The frame of radio 12 with sequence 7, all readings 0; its check code is the one R31 computes. -/
def goodFrame : Frame := ⟨0x0301C001, 0, 0, (0 : Half) ++ checkCode [0x0301, 0xC001, 0, 0, 0, 0, 0]⟩

/-- The trailer's entry in track state `t` with last sequence `seq`, the frame `f` in the queue and the injection `x`. -/
def taking (t : TagEntry) (f : Frame) (x : Option (RadioAddr × InjectKind)) : State :=
  { trailer id with
    inbox := [⟨f, 12, 50⟩]
    link := { (trailer id).link with tagMap := [t], injection := x } }

theorem test_good_frame_is_good : goodFrame.good 12 = true ∧ goodFrame.seq = 7 ∧ (⟨0, 0, 0, 0⟩ : Frame).good 12 = false := by
  decide +kernel

/-- A good frame, a frame made bad by its content or by an injection, in each track state. -/
theorem test_HuntAndProvingTakes_met :
    ∀ t ∈ [TrackState.hunt, .proving, .tracked],
      (Taking (taking ⟨12, 3, t, 5, 0, 0⟩ goodFrame none) ⟨goodFrame, 12, 50⟩ []
          ∧ injected (taking ⟨12, 3, t, 5, 0, 0⟩ goodFrame none) ⟨goodFrame, 12, 50⟩ ≠ some .drop
          ∧ (taking ⟨12, 3, t, 5, 0, 0⟩ goodFrame none).link.entryOf 12 = some ⟨12, 3, t, 5, 0, 0⟩
          ∧ Good (taking ⟨12, 3, t, 5, 0, 0⟩ goodFrame none) ⟨goodFrame, 12, 50⟩
          ∧ treated (taking ⟨12, 3, t, 5, 0, 0⟩ goodFrame none) ⟨goodFrame, 12, 50⟩ = 7)
        ∧ ¬ Good (taking ⟨12, 3, t, 5, 0, 0⟩ goodFrame (some (12, .badCheck))) ⟨goodFrame, 12, 50⟩
        ∧ ¬ Good (taking ⟨12, 3, t, 5, 0, 0⟩ ⟨0, 0, 0, 0⟩ none) ⟨⟨0, 0, 0, 0⟩, 12, 50⟩ := by
  intro t _
  refine ⟨⟨⟨⟨rfl, rfl⟩, rfl, rfl, rfl⟩, nofun, rfl, ⟨nofun, test_good_frame_is_good.1⟩, ?_⟩, fun h => h.1 rfl, fun h => ?_⟩
  · exact test_good_frame_is_good.2.1
  · exact absurd h.2 (by rw [test_good_frame_is_good.2.2]; decide)

/-- Against sequence 7: the last sequence of each clause of R44 and both ends of the distances of R45. -/
theorem test_HuntAndProvingTakes_met_sequences :
    (7 : Seq) = 7 ∧ (7 : Seq) = 6 + 1 ∧ ((7 : Seq) ≠ 8 ∧ (7 : Seq) ≠ 8 + 1) ∧ yard.params.proofCount ≤ 1 + 1
      ∧ 0 + 1 < yard.params.proofCount := by decide

theorem test_TrackedTakes_met :
    ((7 : Seq) - 7).toNat = 0 ∧ ((7 : Seq) - 6).toNat = 1 ∧ ((7 : Seq) - 247).toNat = 16 ∧ 17 ≤ ((7 : Seq) - 246).toNat
      ∧ 17 ≤ ((7 : Seq) - 8).toNat ∧ 2 + 1 < yard.params.lapseCount ∧ yard.params.lapseCount ≤ 3 + 1 := by decide

/-- The frame of radio 12 in a yard that maps no tag, with the list `u`. -/
def unmapped (u : Vector (Option UnknownEntry) 16) (x : Option (RadioAddr × InjectKind)) : State :=
  { yard with inbox := [⟨goodFrame, 12, 50⟩], link := { yard.link with unknown := u, injection := x } }

theorem test_UnmappedAndDroppedTakes_met :
    (Taking (unmapped yard.link.unknown none) ⟨goodFrame, 12, 50⟩ []
        ∧ (unmapped yard.link.unknown none).link.entryOf 12 = none
        ∧ Good (unmapped yard.link.unknown none) ⟨goodFrame, 12, 50⟩
        ∧ (∀ (j : Fin 16) (y : UnknownEntry), (unmapped yard.link.unknown none).link.unknown[j] = some y → y.radio ≠ 12)
        ∧ (unmapped yard.link.unknown none).link.unknown[(0 : Fin 16)] = none)
      ∧ (unmapped listed.link.unknown none).link.unknown[(4 : Fin 16)] = some ⟨12, 9, 1, 2⟩
      ∧ (∀ k : Fin 16, (unmapped (Vector.replicate 16 (some ⟨13, 9, 1, 2⟩)) none).link.unknown[k] ≠ none)
      ∧ injected (unmapped yard.link.unknown (some (12, .drop))) ⟨goodFrame, 12, 50⟩ = some .drop
      ∧ (Live yard ∧ yard.inbox = []) := by
  refine ⟨⟨⟨⟨rfl, rfl⟩, rfl, rfl, rfl⟩, rfl, ⟨nofun, test_good_frame_is_good.1⟩, ?_, ?_⟩, ?_, ?_, rfl, ⟨rfl, rfl⟩, rfl⟩
  · intro j y h
    have e : ∀ j : Fin 16, (unmapped yard.link.unknown none).link.unknown[j] = none := by decide +kernel
    rw [e j] at h
    cases h
  · decide +kernel
  · decide +kernel
  · decide +kernel

theorem test_FrameReachesItsBay_met :
    ((lockBay (trailer id)).locked 3 = true ∧ ((lockBay (trailer id)).bay 3).deferred = none)
      ∧ ((lockBay (trailer fun e => { e with deferred := some (handed 12) })).bay 3).deferred = some (handed 12)
      ∧ (updating.locked 3 = false ∧ (updating.bay 3).inFlight = true)
      ∧ (yard.locked 3 = false ∧ (yard.bay 3).inFlight = false ∧ (yard.bay 3).occupied = false)
      ∧ ((trailer id).locked 3 = false ∧ ((trailer id).bay 3).inFlight = false ∧ ((trailer id).bay 3).occupied = true
        ∧ ((trailer id).bay 3).radio = some (handed 12).radio) :=
  ⟨⟨rfl, by decide +kernel⟩, by decide +kernel, ⟨rfl, by decide +kernel⟩,
    ⟨rfl, by decide +kernel, by decide +kernel⟩, rfl, by decide +kernel, by decide +kernel, by decide +kernel⟩

/-- An entry with fuel level `level` in fuel state `state`. -/
def fuelled (kind : UnitKind) (level : Half) (state : FuelState) : Work :=
  .start { BayEntry.reset 3 with kind := kind, reading := { Reading.zero with fuel := level }, fuel := ⟨state, some (400, 0)⟩ }

/-- Both sides of each limit of R128 (critical 100, low 250, hysteresis 30), the level of no sensor, a drop of 50 and a
refuel of 100 from a baseline of 400. -/
theorem test_StoreAndFuelStagesFollowTheirTables_met :
    (fuelled .electric 0 .normal).bay.kind = .electric
      ∧ (([(65535, FuelState.normal), (100, .normal), (101, .normal), (251, .normal), (250, .noSensor), (279, .low), (280, .low),
          (129, .critical), (130, .critical), (280, .critical)].map fun p => ((fuelled .diesel p.1 p.2).fuelStage).bay.fuel.state)
        = [.noSensor, .critical, .low, .normal, .low, .low, .normal, .critical, .low, .normal])
      ∧ (([(350, FuelState.normal), (351, .normal), (500, .normal), (499, .normal), (200, .normal)].map fun p =>
          ((fuelled .diesel p.1 p.2).fuelStage).conds.map fun c => c.2.code)
        = [[Code.drop], [], [.refuel], [], [.drop]]) := by
  decide +kernel

/-- An entry in defrost state `d` whose reading has the flags `on` and `shore`, 359 or 360 minutes after 0. -/
def defrosted (d : DefrostState) (on shore : Bool) (arrival : Time) : Work :=
  .start
    { BayEntry.reset 3 with
      occupied := true
      readingHeld := true
      reading := { Reading.zero with defrostActive := on, shorePower := shore, arrival := arrival, coil := 500, echo := 4 }
      defrost := { (BayEntry.reset 3).defrost with state := d, orderNumber := 4, lastKind := some .start } }

/-- The transitions of R94-R98 on either side of the interval and of the flags. -/
theorem test_DefrostStageFollowsItsTables_met :
    (defrosted .idle false true 21600).bay.readingHeld = true
      ∧ ([(DefrostState.idle, false, true, (21599 : Time)), (.idle, false, true, 21600), (.idle, false, false, 21600),
          (.idle, true, true, 5), (.draining, true, true, 5), (.due, true, true, 5), (.due, false, false, 5),
          (.ordered, true, true, 5), (.running, false, true, 5), (.self, false, true, 5), (.stopping, true, true, 5)].map
        fun p => ((defrosted p.1 p.2.1 p.2.2.1 p.2.2.2).defrostStage ⟨.default, 9, true⟩).bay.defrost.state)
        = [.idle, .due, .ordered, .self, .self, .running, .ordered, .running, .draining, .draining, .stopping] := by
  decide +kernel

/-- An entry whose door is in state `d` and whose reading shows it open or shut. -/
def doored (d : DoorState) (on : Bool) : Work :=
  .start
    { BayEntry.reset 3 with
      reading := { Reading.zero with doorOpen := on, arrival := 60 }
      door := ⟨d, 50, 1, .stopped⟩
      defrost := { (BayEntry.reset 3).defrost with state := .running } }

theorem test_DoorStageFollowsItsTables_met :
    ([(DoorState.closed, true), (.isOpen, true), (.openLong, true), (.closed, false), (.isOpen, false),
          (.openLong, false)].map fun p =>
        (((doored p.1 p.2).doorStage .ordered).bay.door.state,
          ((doored p.1 p.2).doorStage .ordered).conds.map fun c => c.2.code))
      = [(.isOpen, [.inDefrost]), (.isOpen, [.inDefrost]), (.openLong, [.inDefrost]), (.closed, []), (.closed, []),
          (.closed, [.closedAfterLong])] := by
  decide +kernel

/-! ## Expiries of a bay's timers -/

/-- The trailer with all three timers run out, in defrost state `d`. -/
def runOut (d : DefrostState) : State :=
  trailer fun e =>
    { e with
      silence := .running 0 600
      door := ⟨.isOpen, 0, 1, .running 0 300⟩
      defrost := { e.defrost with state := d, timer := .running 0 180 } }

/-- A free bay, a locked one and one with an update in flight, with the timers run out; a timer with a second left. -/
theorem test_SilenceAndDoorExpiriesBeginUpdates_met :
    (FreeBay (runOut .ordered) 3 ∧ RunOut (runOut .ordered) 3 .silence 600 ∧ RunOut (runOut .ordered) 3 .door 300)
      ∧ ((lockBay (runOut .idle)).locked 3 = true ∧ RunOut (lockBay (runOut .idle)) 3 .silence 600
        ∧ ExpiryOf (lockBay (runOut .idle)) 3 .silence (.silenceExpiry 3))
      ∧ (let s := trailer fun e => { e with inFlight := true, silence := .running 0 600 }
        s.locked 3 = false ∧ (s.bay 3).inFlight = true ∧ RunOut s 3 .silence 600)
      ∧ Live (trailer fun e => { e with silence := .running 1 600 })
      ∧ ∀ n, ¬ RunOut (trailer fun e => { e with silence := .running 1 600 }) 3 .silence n := by
  refine ⟨⟨freeBay_of (by decide +kernel), ⟨⟨rfl, rfl⟩, rfl, by decide +kernel⟩, ⟨rfl, rfl⟩, rfl, by decide +kernel⟩,
    ⟨rfl, ⟨⟨rfl, rfl⟩, rfl, by decide +kernel⟩, .silence⟩,
    ⟨rfl, by decide +kernel, ⟨rfl, rfl⟩, rfl, by decide +kernel⟩, ⟨rfl, rfl⟩, ?_⟩
  intro n h
  have e : ((trailer fun e => { e with silence := .running 1 600 }).bay 3).timer .silence = .running 1 600 := by
    decide +kernel
  have h' := h.2.2
  rw [e] at h'
  cases h'

/-- Each state that runs the defrost timer; both sides of max attempts 3. -/
theorem test_DefrostTimersEndTheirStates_met :
    (∀ d ∈ [DefrostState.ordered, .running, .stopping, .draining],
        FreeBay (runOut d) 3 ∧ RunOut (runOut d) 3 .defrost 180 ∧ ((runOut d).bay 3).defrost.state = d)
      ∧ 1 + 1 < yard.params.maxAttempts ∧ yard.params.maxAttempts ≤ 2 + 1 := by
  refine ⟨fun d hd => ⟨freeBay_of ?_, ⟨⟨rfl, rfl⟩, rfl, ?_⟩, ?_⟩, by decide, by decide⟩ <;>
    (simp only [List.mem_cons, List.not_mem_nil, or_false] at hd; rcases hd with rfl | rfl | rfl | rfl <;> decide +kernel)

/-! ## The Feeder Arbiter -/

/-- The trailer waits at the head of feeder 0's queue; `f` changes the feeder's entry. -/
def queueing (f : Feeder → Feeder) : State :=
  let s := defrosting .due none .stopped
  { s with feeders := s.feeders.set 0 (f { s.feeder 0 with queue := [(3, 9)] }) }

theorem test_GrantsGoInQueueOrder_met :
    ((queueing id).feeder 0).state = .active
      ∧ ((queueing id).feeder 0).grants.length + ((queueing id).feeder 0).selfCount < ((queueing id).feeder 0).capacity
      ∧ ((queueing id).feeder 0).queue = [] ++ (3, 9) :: []
      ∧ (((queueing id).bay 3).silent = false ∧ ((queueing id).bay 3).inFlight = false
        ∧ ((queueing id).bay 3).waiting = [] ∧ (queueing id).locked 3 = false ∧ ((queueing id).bay 3).held = [])
      ∧ ((queueing fun x => { x with capacity := 2, selfCount := 2 }).feeder 0).capacity
        ≤ ((queueing fun x => { x with capacity := 2, selfCount := 2 }).feeder 0).grants.length
          + ((queueing fun x => { x with capacity := 2, selfCount := 2 }).feeder 0).selfCount := by
  decide +kernel

/-- A stop window's reports, and a late start's refused direct grant, put in the order of R110. -/
theorem test_GrantsGoInQueueOrder_met_reports :
    ∀ p ∈ [([Report.selfJoin 0, .release 0], [Report.release 0, .selfJoin 0]),
        ([.joinQueue 0 9, .leaveQueue 0, .mayBeEligible 0], [.leaveQueue 0, .joinQueue 0 9, .mayBeEligible 0]),
        ([.selfJoin 0, .selfLeave 0, .directGrant 1], [.directGrant 1, .selfJoin 0, .selfLeave 0])],
      p.2.Pairwise (fun r r' => r.rank ≤ r'.rank)
        ∧ ∀ k, (p.2.filter fun r => r.rank == k) = p.1.filter fun r => r.rank == k := by
  intro p hp
  simp only [List.mem_cons, List.not_mem_nil, or_false] at hp
  rcases hp with rfl | rfl | rfl <;> refine ⟨by decide, fun k => ?_⟩ <;>
    simp [Report.rank, List.filter_cons] <;> split <;> split <;> first | rfl | omega

/-- Feeder 0 in state `x`, its grant held by the trailer in defrost state `d`, with its line `high`. -/
def feeding (x : FeederState) (grants : List BayNo) (timer : Timer) (high : Bool) : State :=
  let s := defrosting .ordered (some 0) (.running 5 180)
  { s with
    pins := { s.pins with feederOk := s.pins.feederOk.set 0 high }
    feeders := s.feeders.set 0 { s.feeder 0 with state := x, grants := grants, timer := timer } }

theorem test_FeederFallRevokesEveryGrant_met :
    (lowYard.pins.resetN = false)
      ∧ ((feeding .tripped [] .stopped false).pins.resetN = true
        ∧ (feeding .tripped [] .stopped false).mailbox.progress ≠ .halting
        ∧ (feeding .tripped [] .stopped false).pins.feederOk[(0 : FeederNo)] = false)
      ∧ (feeding .tripped [] .stopped true).pins.feederOk[(0 : FeederNo)] = true
      ∧ ((feeding .active [3] .stopped true).pins.feederOk[(0 : FeederNo)] = true
        ∧ ((feeding .active [3] .stopped true).feeder 0).state ≠ .tripped
        ∧ ((feeding .active [3] .stopped true).feeder 0).grants.Nodup
        ∧ ∀ b ∈ ((feeding .active [3] .stopped true).feeder 0).grants,
          ((feeding .active [3] .stopped true).bay b).defrost.state.granted = true) := by
  decide +kernel

theorem test_FeederRestores_met :
    ((feeding .tripped [] .stopped false).pins.feederOk[(0 : FeederNo)] = false
        ∧ ((feeding .tripped [] .stopped false).feeder 0).state = .tripped
        ∧ (feeding .tripped [] .stopped false).decoder.mode ≠ .pass
        ∧ 0 < (feeding .tripped [] .stopped false).params.restoreDelay)
      ∧ (∃ s : State, s.pins.resetN = true ∧ (s.feeder 0).state = .tripped ∧ s.params.restoreDelay = 0)
      ∧ ((feeding .restoring [] (.running 0 60) true).decoder.mode = .run
        ∧ ((feeding .restoring [] (.running 0 60) true).feeder 0).state = .restoring
        ∧ ((feeding .restoring [] (.running 0 60) true).feeder 0).timer = .running 0 60)
      ∧ (yard.feeder 0).state ≠ .restoring :=
  ⟨by decide +kernel,
    ⟨{ feeding .tripped [] .stopped false with params := { Params.default with restoreDelay := 0 } }, by decide +kernel⟩,
    by decide +kernel, by decide +kernel⟩

/-! ## Time -/

theorem test_MicrosecondTimersExpire_met :
    (Live readyYard ∧ readyYard.clock.base < 1000000 ∧ readyYard.clock.base + 9 < 1000000
        ∧ readyYard.access.table[(0 : Fin 4).val]? = some ⟨⟨0, 206896, 8⟩, .ready [1, 2, 3, 4, 5, 6, 7, 8] 9⟩)
      ∧ (∀ k data left, yard.access.table[(3 : Fin 4).val]? ≠ some ⟨k, .ready data left⟩)
      ∧ (lockBay yard).access.lock = some ⟨1, 3, 7⟩ ∧ yard.access.lock = none
      ∧ ∀ s : State, s.pins.resetN = true → s.mailbox.progress = .none →
        Live { s with clock := ⟨0, 999993⟩ } ∧ 999993 < 1000000 ∧ 1000000 ≤ 999993 + 7
          ∧ ∃ u, exec .yardTick { s with clock := ⟨0, 999993⟩ } = .next u :=
  ⟨⟨⟨rfl, rfl⟩, by decide, by decide, rfl⟩, nofun, rfl, rfl, fun s h hp => ⟨⟨h, by simp [State.haltDue, hp]⟩, by decide,
    by decide, _, rfl⟩⟩

/-- The last period but one of a second, and the last. -/
theorem test_YardTickCountsASecond_met :
    (lowYard.pending = [] ∧ lowYard.pins.resetN = false)
      ∧ (yard.pending = [] ∧ Live yard ∧ 999998 + 1 < 1000000 ∧ 1000000 ≤ 999999 + 1) := by
  refine ⟨⟨rfl, rfl⟩, rfl, ⟨rfl, rfl⟩, by decide, by decide⟩

/-! ## Notices and the status block -/

/-- The yard with notice sources `q`. -/
def noticing (q : Sources → Sources) : State := { yard with sources := q yard.sources }

/-- A condition for the tests. -/
def someCondition : Condition := ⟨.tripped, 5, .counts 1 2, 3⟩

/-- One source of each kind pending, and none. -/
theorem test_ClaimFollowsItsOrder_met :
    (yard.decoder.mode ≠ .pass ∧ yard.ring.inFlight = none ∧ (yard.ring.producer - yard.ring.consumer).toNat ≠ 255)
      ∧ (noticing fun q => { q with orders := [(3, 9)] }).sources.orders = (3, 9) :: []
      ∧ ((noticing fun q => { q with feeders := q.feeders.set 7 (some someCondition) }).sources.feeders[(7 : FeederNo)]
          = some someCondition
        ∧ (∀ g : FeederNo, g < 7 →
          (noticing fun q => { q with feeders := q.feeders.set 7 (some someCondition) }).sources.feeders[g] = none))
      ∧ (noticing fun q => { q with tags := q.tags.set 4 true }).sources.tags[(4 : Fin 16)] = true
      ∧ (noticing fun q => { q with alerts := q.alerts.set 639 (some someCondition) }).sources.alerts[(639 : Fin 640)]
        = some someCondition
      ∧ (639 = (639 + 1 + 639) % 640 ∧ 0 = (639 + 1 + 0) % 640)
      ∧ (∀ i : Fin 640, yard.sources.alerts[i] = none)
      ∧ (∀ i : Fin 256, yard.ring.shadow[i] = none) :=
  ⟨by decide, rfl, by decide +kernel, by decide +kernel, Vector.getElem_set_self _, by decide,
    fun i => Vector.getElem_replicate (i := i.val) i.isLt, fun i => Vector.getElem_replicate (i := i.val) i.isLt⟩

/-- No claim to make, with the Status Writer in each of its positions: a result word burst under way with a rewrite wanted
among them. -/
theorem test_StepEndClaimsAndPresents_met :
    ∀ x : StatusWriter, noticeSettle { passYard with status := x } = { passYard with status := x } := fun _ => rfl

/-! ## Invariants -/

theorem test_ResetMeetsTheInvariants_met :
    lowYard.pins.resetN = false ∧ ∃ t, exec (.resetNRelease 1) lowYard = .next t := ⟨rfl, _, rfl⟩

/-- Every invariant. -/
def Invariants (s : State) : Prop :=
  MemoryCanonical s ∧ EventsInOrder s ∧ WindowsValid s ∧ TablesBounded s ∧ PassQuiet s ∧ ShadowUnique s ∧ FeederLaw s
    ∧ BurstsFollowUpdates s ∧ TablesAgree s

/-- Nothing of bay `b`'s entry waits on a lock, an update, an order or a feeder. -/
theorem yard_bays_rest : ∀ b, (yard.bay b).inFlight = false ∧ (yard.bay b).waiting = [] ∧ (yard.bay b).held = []
    ∧ (yard.bay b).deferred = none ∧ (yard.bay b).occupied = false ∧ (yard.bay b).radio = none
    ∧ (yard.bay b).defrost = .reset ∧ (yard.bay b).reading = .zero := by
  decide +kernel

theorem yard_feeders_rest : ∀ f, yard.feeder f = Feeder.reset true := by decide +kernel

theorem tablesAgree_yard (l : List Instr) : TablesAgree { yard with pending := l } := by
  have hb := yard_bays_rest
  have hf := yard_feeders_rest
  have hs : ∀ f : FeederNo, yard.bays.toList.countP (fun e => e.defrost.state == .self && e.feeder == f) = 0 := by
    decide +kernel
  refine ⟨⟨⟨nofun, fun h => absurd rfl h⟩, ⟨nofun, fun h => absurd rfl h⟩, ⟨nofun, fun h => ?_⟩, nofun, nofun, fun b => ?_⟩, ⟨.nil, .nil, nofun, fun b => ?_⟩,
    ⟨.nil, fun b => ?_⟩, fun f => ?_, fun b f h => ?_⟩
  · rcases h with h | ⟨w, h⟩ <;> cases h
  · show ((Progress.none = .awaitsTurn b) ↔ .command ∈ (yard.bay b).waiting) ∧ (yard.bay b).waiting.count .command ≤ 1
      ∧ .command ∉ (yard.bay b).held ∧ _
    rw [(hb b).2.1, (hb b).2.2.1]
    exact ⟨⟨nofun, nofun⟩, by decide, nofun, nofun, nofun, nofun⟩
  · show ((yard.bay b).occupied = true → _) ∧ ((yard.bay b).occupied = false → (yard.bay b).radio = none
      ∧ (yard.bay b).defrost.state = .idle ∧ (yard.bay b).defrost.pending = none) ∧ (_ → (yard.bay b).reading = .zero)
    obtain ⟨-, -, -, -, ho, hr, hd, hz⟩ := hb b
    rw [ho, hr, hd, hz]
    exact ⟨nofun, fun _ => ⟨rfl, rfl, rfl⟩, fun _ => rfl⟩
  · show b ∈ [] ↔ (yard.bay b).defrost.pending ≠ none
    rw [(hb b).2.2.2.2.2.2.1]
    exact ⟨nofun, fun h => absurd rfl h⟩
  · show (yard.feeder f).grants.Nodup ∧ (∀ b, b ∈ (yard.feeder f).grants ↔ (yard.bay b).defrost.state.granted = true
        ∧ (yard.bay b).defrost.grantFeeder = some f) ∧ ((yard.feeder f).queue.map Prod.fst).Nodup
      ∧ (∀ b, b ∈ (yard.feeder f).queue.map Prod.fst ↔ (yard.bay b).defrost.state = .due
        ∧ (yard.bay b).defrost.reason = .queued ∧ (yard.bay b).feeder = f)
      ∧ (yard.feeder f).selfCount
        = yard.bays.toList.countP fun e => e.defrost.state == .self && e.feeder == f
    rw [hf f, hs f]
    refine ⟨.nil, fun b => ⟨nofun, ?_⟩, .nil, fun b => ⟨nofun, ?_⟩, rfl⟩ <;> rw [(hb b).2.2.2.2.2.2.1] <;>
      exact fun h => nomatch h.1
  · have e : ({ yard with pending := l } : State).bay b = yard.bay b := rfl
    rw [e, (hb b).2.2.2.2.2.2.1] at h
    cases h

theorem tablesBounded_yard (l : List Instr) : TablesBounded { yard with pending := l } := by
  unfold TablesBounded
  have h : yard.inbox.length ≤ 16 ∧ yard.access.table.length ≤ 4 ∧ yard.clock.base < 1000000 := by decide
  exact ⟨h.1, h.2.1, List.nodup_nil, h.2.2⟩

/-- The yard with a command waiting meets every invariant, and its step is a next state. -/
theorem test_invariants_met :
    Invariants { yard with pending := [.yardTick] } ∧ ∃ t, step { yard with pending := [.yardTick] } = .next t := by
  have hb := yard_bays_rest
  have hr : ∀ i : Fin 256, yard.ring.shadow[i] = none := fun i => Vector.getElem_replicate (i := i.val) i.isLt
  refine ⟨⟨rfl, ⟨nofun, fun b => ⟨fun _ => (hb b).2.1, fun _ => ⟨(hb b).2.2.1, (hb b).2.2.2.1⟩⟩⟩,
    windowsValid_of_yard _ rfl rfl, tablesBounded_yard _, nofun, fun i _ x h => ?_, ?_,
    fun b => ⟨fun _ => rfl, fun h => ?_⟩, tablesAgree_yard _⟩, _, rfl⟩
  · have h' : yard.ring.shadow[i] = some x := h
    rw [hr i] at h'
    cases h'
  · intro f
    show ((yard.feeder f).state ≠ .active → (yard.feeder f).grants = []) ∧ (yard.feeder f).grants.length ≤ 8
      ∧ (yard.feeder f).capacity ≤ 8
    rw [yard_feeders_rest f]
    decide
  · have h' : (yard.bay b).inFlight = true := h
    rw [(hb b).1] at h'
    cases h'
end Sys2Proof.Tests
end

/-! PROOFS. R7: what a step can do to the Window Decoder, said once, and why each such change keeps the window table
valid. -/

namespace Sys2Proof.Machine

/-! ## The window table (R5) -/

@[simp] theorem Windows.get_put_self (w : Windows) (x : Window) (n : WindowName) : (w.put x n).get n = x := by
  cases n <;> rfl

theorem Windows.get_put_of_ne (w : Windows) (x : Window) {n k : WindowName} (h : k ≠ n) :
    (w.put x n).get k = w.get k := by
  cases n <;> cases k <;> simp [Windows.get, Windows.put] at h ⊢

theorem Windows.allOn_iff (w : Windows) : w.allOn = true ↔ ∀ n, (w.get n).on = true := by
  simp only [Windows.allOn, Bool.and_eq_true]
  constructor
  · rintro ⟨⟨hinbox, hbays⟩, hring⟩ n
    cases n
    · exact hinbox
    · exact hbays
    · exact hring
  · exact fun h => ⟨⟨h .inbox, h .bays⟩, h .ring⟩

@[simp] theorem Window.off_on : Window.off.on = false := rfl

theorem Window.HasPage.on {w : Window} {p : Nat} (h : w.HasPage p) : w.on = true :=
  decide_eq_true (h.1.trans h.2)

/-- Two windows with a page in common meet. -/
theorem Window.meets_of_hasPage {x y : Window} {p : Nat} (hx : x.HasPage p) (hy : y.HasPage p) : x.meets y = true := by
  simp only [Window.meets, Bool.and_eq_true, decide_eq_true_eq]
  exact ⟨⟨⟨hx.on, hy.on⟩, hx.1.trans hy.2⟩, hy.1.trans hx.2⟩

/-- A window that overlaps no other meets none of the two others. -/
theorem Windows.not_meets_of_not_overlaps {w : Windows} {x : Window} {n k : WindowName} (h : w.overlaps x n = false)
    (hk : k ≠ n) : x.meets (w.get k) = false := by
  cases n <;> simp only [Windows.overlaps, Bool.or_eq_false_iff] at h <;> cases k <;>
    simp [Windows.get, h] at hk ⊢

/-! ## R7, said of the decoder alone -/

/-- What R7 asks of window `n` when it is `x` and on, beside the other windows of `d`. -/
def Decoder.Fits (d : Decoder) (n : WindowName) (x : Window) : Prop :=
  x.limit < pagesOf d.memSize ∧ pagesAllowed x.pages n = true ∧ ¬ x.HasPage (pagesOf d.memSize - 1)
    ∧ ∀ k, k ≠ n → ∀ p, x.HasPage p → ¬ (d.windows.get k).HasPage p

/-- `WindowsValid` reads the Window Decoder and nothing else: `windowsValid_iff`. -/
structure Decoder.Valid (d : Decoder) : Prop where
  fits : ∀ n, (d.windows.get n).on = true → d.Fits n (d.windows.get n)
  on : d.mode ≠ .pass → ∀ n, (d.windows.get n).on = true

theorem windowsValid_iff (s : State) : WindowsValid s ↔ s.decoder.Valid :=
  ⟨fun ⟨hfits, hon⟩ => ⟨hfits, hon⟩, fun ⟨hfits, hon⟩ => ⟨hfits, hon⟩⟩

/-- The rows of R6 that accept a window leave it off or fit for the table. -/
theorem newWindow_fits {d : Decoder} {n : WindowName} {base limit : Nat} {x : Window}
    (h : newWindow d n base limit = some x) (hx : x.on = true) : d.Fits n x := by
  unfold newWindow at h
  split_ifs at h with hoff hmem hpages hsetup hover <;> cases h
  · cases hx
  · refine ⟨Nat.lt_of_not_le hmem, ?_, ?_, fun k hk p hp hkp => ?_⟩
    · simpa [Window.pages, hx] using hpages
    · simpa [Window.HasPage] using hsetup
    · have hmeets := Windows.not_meets_of_not_overlaps (eq_false_of_ne_true hover) hk
      exact absurd (Window.meets_of_hasPage hp hkp) (by simp [hmeets])

/-- A fitting window put in the table of a valid decoder in PASS leaves it valid: the table's other windows share no
page with it either. -/
theorem Decoder.Valid.put {d : Decoder} (hd : d.Valid) (hm : d.mode = .pass) {n : WindowName} {x : Window}
    (hx : x.on = true → d.Fits n x) : Decoder.Valid { d with windows := d.windows.put x n } where
  on := fun h => absurd hm h
  fits := fun m hon => by
    by_cases hmn : m = n
    · subst hmn
      simp only [Windows.get_put_self] at hon ⊢
      obtain ⟨hlimit, hpages, hsetup, hshare⟩ := hx hon
      refine ⟨hlimit, hpages, hsetup, fun k hk => ?_⟩
      simpa only [Windows.get_put_of_ne _ _ hk] using hshare k hk
    · simp only [Windows.get_put_of_ne _ _ hmn] at hon ⊢
      obtain ⟨hlimit, hpages, hsetup, hshare⟩ := hd.fits m hon
      refine ⟨hlimit, hpages, hsetup, fun k hk p hp => ?_⟩
      by_cases hkn : k = n
      · subst hkn
        simp only [Windows.get_put_self]
        intro hxp
        obtain ⟨-, -, -, hxshare⟩ := hx hxp.on
        exact hxshare m hmn p hxp hp
      · simpa only [Windows.get_put_of_ne _ _ hkn] using hshare k hk p hp

/-- A change of mode keeps R7 when all three windows are on. -/
theorem Decoder.Valid.withMode {d : Decoder} (hd : d.Valid) (m : Mode) (hon : ∀ n, (d.windows.get n).on = true) :
    Decoder.Valid { d with mode := m } where
  fits := hd.fits
  on := fun _ => hon

/-- With every window off, in PASS, R7 asks nothing. -/
theorem Decoder.valid_off (memSize : BitVec 2) : Decoder.Valid ⟨memSize, .pass, ⟨.off, .off, .off⟩⟩ where
  fits := fun n h => by cases n <;> cases h
  on := fun h => absurd rfl h

/-! ## What a step can do to the decoder -/

/-- The changes of the Window Decoder in one step: none, SET_WINDOW in PASS (R6), RUN and HALT (R14), RESET_N (R18). -/
inductive DecoderChange : Decoder → Decoder → Prop
  | same (d : Decoder) : DecoderChange d d
  | window (d : Decoder) (n : WindowName) (base limit : Nat) (x : Window) (inPass : d.mode = .pass)
      (accepted : newWindow d n base limit = some x) : DecoderChange d { d with windows := d.windows.put x n }
  | run (d : Decoder) (ready : d.mode = .pass → d.windows.allOn = true) : DecoderChange d { d with mode := .run }
  | halt (d : Decoder) (running : d.mode = .run) : DecoderChange d { d with mode := .halted }
  | reset (d : Decoder) (memSize : BitVec 2) : DecoderChange d ⟨memSize, .pass, ⟨.off, .off, .off⟩⟩

theorem DecoderChange.of_eq {d e : Decoder} (h : e = d) : DecoderChange d e := h ▸ .same d

theorem DecoderChange.valid {d e : Decoder} (h : DecoderChange d e) (hd : d.Valid) : e.Valid := by
  cases h with
  | same => exact hd
  | window n base limit x inPass accepted => exact hd.put inPass (newWindow_fits accepted)
  | run ready =>
    refine hd.withMode .run ?_
    by_cases hm : d.mode = .pass
    · exact (Windows.allOn_iff _).1 (ready hm)
    · exact hd.on hm
  | halt running => exact hd.withMode .halted (hd.on (by simp [running]))
  | reset memSize => exact Decoder.valid_off memSize

/-! ## What leaves the decoder as it is -/

@[simp] theorem finish_decoder (r : Result) (s : State) : (s.finish r).decoder = s.decoder := (finish_moves r s).decoder

@[simp] theorem act_decoder (f : FeederNo) (s : State) : (act f s).decoder = s.decoder := (act_moves f s).decoder

@[simp] theorem offerCommand_decoder (b : BayNo) (s : State) : (offerCommand b s).decoder = s.decoder :=
  (offerCommand_moves b s).decoder

@[simp] theorem offerHeld_decoder (b : BayNo) (ev : BayEvent) (s : State) : (offerHeld b ev s).decoder = s.decoder :=
  (offerHeld_moves b ev s).decoder

@[simp] theorem offerFrame_decoder (h : HandedFrame) (s : State) : (offerFrame h s).decoder = s.decoder :=
  (offerFrame_moves h s).decoder

@[simp] theorem fetchJudge_decoder (s : State) : (fetchJudge s).decoder = s.decoder := (fetchJudge_moves s).decoder

@[simp] theorem endUpdate_decoder (b : BayNo) (s : State) : (endUpdate b s).decoder = s.decoder :=
  (endUpdate_moves b s).decoder

/-- A fold of changes that each keep the decoder keeps it. -/
theorem foldl_decoder {α : Type} {g : State → α → State} (h : ∀ s a, (g s a).decoder = s.decoder) (l : List α)
    (s : State) : (l.foldl g s).decoder = s.decoder := by
  induction l generalizing s with
  | nil => rfl
  | cons a rest ih => exact (ih (g s a)).trans (h s a)

@[simp] theorem noticeSettle_decoder (s : State) : (noticeSettle s).decoder = s.decoder := by
  unfold noticeSettle
  split
  · rename_i x _
    cases x <;> rfl
  · rfl

@[simp] theorem settle_decoder (s : State) : (settle s).decoder = s.decoder := by
  unfold settle
  rw [statusSettle_eq]
  exact noticeSettle_decoder s

@[simp] theorem releaseLock_decoder (s : State) : (releaseLock s).decoder = s.decoder := by
  unfold releaseLock
  split
  · exact (unlocked_moves _ _).decoder
  · rfl

@[simp] theorem haltFirst_decoder (s : State) : (haltFirst s).decoder = s.decoder := by
  unfold haltFirst completeHalt
  split <;> simp

/-! ## Commands -/

theorem commandSetWindow_decoder (cmd : Command) (s : State) :
    DecoderChange s.decoder (commandSetWindow cmd s).decoder := by
  unfold commandSetWindow
  split
  · exact .of_eq (finish_decoder _ s)
  · rename_i hm
    split
    · exact .of_eq (finish_decoder _ s)
    · split
      · exact .of_eq (finish_decoder _ s)
      · rename_i x hx
        rw [finish_decoder]
        exact .window _ _ _ _ x (not_not.1 hm) hx

theorem commandRun_decoder (s : State) : DecoderChange s.decoder (commandRun s).decoder := by
  unfold commandRun
  split
  · split
    · rename_i hon
      rw [finish_decoder]
      exact .run _ fun _ => hon
    · exact .of_eq (finish_decoder _ s)
  · exact .of_eq (finish_decoder _ s)
  · rename_i hm
    rw [finish_decoder]
    exact .run _ fun hp => absurd (hm.symm.trans hp) (by decide)

theorem commandHalt_decoder (s : State) : DecoderChange s.decoder (commandHalt s).decoder := by
  unfold commandHalt
  split
  · exact .of_eq (finish_decoder _ s)
  · rename_i hm
    split
    · exact .halt _ hm
    · rw [finish_decoder]
      exact .halt _ hm
  · exact .of_eq (finish_decoder _ s)

@[simp] theorem commandSetTiming_decoder (cmd : Command) (s : State) : (commandSetTiming cmd s).decoder = s.decoder := by
  unfold commandSetTiming
  split <;> simp

@[simp] theorem bayCommand_decoder (a : Word) (ok : Bool) (s : State) : (bayCommand a ok s).decoder = s.decoder := by
  unfold bayCommand
  split
  · simp
  · split
    · simp
    · split <;> simp

@[simp] theorem commandUnmapTag_decoder (cmd : Command) (s : State) : (commandUnmapTag cmd s).decoder = s.decoder := by
  unfold commandUnmapTag
  split
  · simp
  · split <;> simp

@[simp] theorem commandSetFeeder_decoder (cmd : Command) (s : State) : (commandSetFeeder cmd s).decoder = s.decoder := by
  unfold commandSetFeeder
  split
  · simp
  · split
    · simp
    · simp only []
      split <;> simp

@[simp] theorem commandInject_decoder (cmd : Command) (s : State) : (commandInject cmd s).decoder = s.decoder := by
  unfold commandInject
  split
  · simp
  · split
    · simp
    · split <;> simp

/-- SET_WINDOW, RUN and HALT are the commands that change the decoder. -/
theorem runCommand_decoder (cmd : Command) (s : State) : DecoderChange s.decoder (runCommand cmd s).decoder := by
  unfold runCommand
  split
  · exact commandSetWindow_decoder cmd s
  · exact .of_eq (commandSetTiming_decoder cmd s)
  · exact commandRun_decoder s
  · exact commandHalt_decoder s
  · exact .of_eq (finish_decoder _ _)
  · exact .of_eq (bayCommand_decoder _ _ s)
  · exact .of_eq (commandUnmapTag_decoder cmd s)
  · exact .of_eq (bayCommand_decoder _ _ s)
  · exact .of_eq (bayCommand_decoder _ _ s)
  · exact .of_eq (bayCommand_decoder _ _ s)
  · exact .of_eq (commandSetFeeder_decoder cmd s)
  · exact .of_eq (bayCommand_decoder _ _ s)
  · exact .of_eq (commandInject_decoder cmd s)
  · exact .of_eq (finish_decoder _ _)
  · exact .of_eq (finish_decoder _ s)

@[simp] theorem takeCommand_decoder (cmd : Command) (s : State) : (s.takeCommand cmd).decoder = s.decoder := by
  simp only [State.takeCommand, State.leaveDone]
  split <;> rfl

theorem takeAndRun_decoder (code : Word) (s : State) : DecoderChange s.decoder (takeAndRun code s).decoder := by
  have h := runCommand_decoder (s.mailbox.commandOf code) (s.takeCommand (s.mailbox.commandOf code))
  rwa [takeCommand_decoder] at h

/-! ## Requests -/

@[simp] theorem addEntry_decoder (k : ReadKey) (s : State) : (s.addEntry k).decoder = s.decoder := by
  unfold State.addEntry
  split <;> rfl

@[simp] theorem answerBayRead_decoder (r : Request) (b : BayNo) (s : State) :
    (answerBayRead r b s).decoder = s.decoder := by
  unfold answerBayRead
  split
  · simp
  · split
    · simp
    · split <;> rfl

@[simp] theorem answerLockedBayRead_decoder (r : Request) (b : BayNo) (s : State) :
    (answerLockedBayRead r b s).decoder = s.decoder := by
  unfold answerLockedBayRead
  split
  · split <;> rfl
  · split
    · split <;> rfl
    · rfl

@[simp] theorem answerSettings_decoder (r : Request) (b : BayNo) (k : Nat) (ws : List (Mask × Word)) (s : State) :
    (answerSettings r b k ws s).decoder = s.decoder := by
  simp only [answerSettings]
  split_ifs <;> rfl

@[simp] theorem answerArgument_decoder (r : Request) (x : ArgName) (s : State) :
    (answerArgument r x s).decoder = s.decoder := by
  unfold answerArgument
  split <;> rfl

@[simp] theorem answerConsumer_decoder (r : Request) (v : Word) (s : State) :
    (answerConsumer r v s).decoder = s.decoder := by
  unfold answerConsumer
  split <;> rfl

@[simp] theorem answerInbox_decoder (r : Request) (radio : RadioAddr) (frame : Frame) (s : State) :
    (answerInbox r radio frame s).decoder = s.decoder := by
  unfold answerInbox
  split <;> rfl

theorem answerCommand_decoder (r : Request) (v : Word) (s : State) :
    DecoderChange s.decoder (answerCommand r v s).decoder := by
  unfold answerCommand
  split
  · exact .same _
  · rw [pass_decoder]
    split
    · unfold acknowledge
      split <;> exact .same _
    · exact takeAndRun_decoder v s

/-- The command word is the one path of a request that reaches the decoder. -/
theorem answer_decoder (r : Request) (s : State) (p : Route) : DecoderChange s.decoder (answer r s p).decoder := by
  cases p with
  | refuse | plain => exact .same _
  | argument x v => exact .of_eq (answerArgument_decoder r x s)
  | command v => exact answerCommand_decoder r v s
  | consumer v => exact .of_eq (answerConsumer_decoder r v s)
  | inbox radio frame => exact .of_eq (answerInbox_decoder r radio frame s)
  | bayRead b =>
    simp only [answer]
    split
    · exact .of_eq (answerLockedBayRead_decoder r b s)
    · exact .of_eq (answerBayRead_decoder r b s)
  | settings b k ws => exact .of_eq (answerSettings_decoder r b k ws s)

@[simp] theorem releaseAtPresentation_decoder (r : Request) (s : State) :
    (releaseAtPresentation r s).decoder = s.decoder := by
  unfold releaseAtPresentation
  split <;> simp

theorem present_decoder (r : Request) (s : State) : DecoderChange s.decoder (present r s).decoder := by
  have hrel : (releaseAtPresentation r s.clearAnswer).decoder = s.decoder :=
    releaseAtPresentation_decoder r s.clearAnswer
  simp only [present]
  generalize releaseAtPresentation r s.clearAnswer = u at hrel ⊢
  rw [← hrel]
  exact answer_decoder r u _

/-! ## Events -/

/-- An event changes the decoder as its own change does: a HALT's completion before it and the end of the step leave it. -/
theorem event_decoder {s t : State} {c : State → Bool} {f : State → State}
    (hf : ∀ u, DecoderChange u.decoder (f u).decoder) (h : event s c f = .next t) :
    DecoderChange s.decoder t.decoder := by
  unfold event happen at h
  cases h
  split
  · split
    · rw [settle_decoder, ← haltFirst_decoder s]
      exact hf _
    · exact .of_eq (haltFirst_decoder s)
  · exact .same _

/-- An event whose own change leaves the decoder leaves it. -/
theorem event_decoder_same {s t : State} {c : State → Bool} {f : State → State}
    (hf : ∀ u, (f u).decoder = u.decoder) (h : event s c f = .next t) : DecoderChange s.decoder t.decoder :=
  event_decoder (fun u => .of_eq (hf u)) h

theorem requestStep_decoder {r : Request} {s t : State} (h : requestStep r s = .next t) :
    DecoderChange s.decoder t.decoder := event_decoder (present_decoder r) h

theorem guarded_decoder {ok : Bool} {r : Request} {s t : State} (h : guarded ok r s = .next t) :
    DecoderChange s.decoder t.decoder := by
  unfold guarded at h
  split at h
  · exact requestStep_decoder h
  · cases h

theorem execUnknownCommand_decoder {i : Initiator} {code : Word} {s t : State}
    (h : execUnknownCommand i code s = .next t) : DecoderChange s.decoder t.decoder := by
  unfold execUnknownCommand at h
  split at h
  · exact requestStep_decoder h
  · cases h

/-! ### The memory port -/

@[simp] theorem finishRequest_decoder (r : Request) (data : List Word) (s : State) (p : Path) :
    (finishRequest r data s p).decoder = s.decoder := by
  cases p with
  | plain | commandWord | consumerIndex | settings b => rfl
  | argument x => cases x <;> rfl
  | bayRead b overtaken =>
    simp only [finishRequest, rejudgeRead]
    split
    · split <;> simp
    · split <;> rfl

theorem execMemoryPortGrant_decoder {s t : State} (h : execMemoryPortGrant s = .next t) :
    DecoderChange s.decoder t.decoder :=
  event_decoder_same (fun u => by split <;> rfl) h

theorem execPassThroughBurstComplete_decoder {s t : State} (h : execPassThroughBurstComplete s = .next t) :
    DecoderChange s.decoder t.decoder :=
  event_decoder_same (fun u => by
    split
    · rw [finishRequest_decoder]; rfl
    · rfl) h

theorem execRecordBurstComplete_decoder {s t : State} (h : execRecordBurstComplete s = .next t) :
    DecoderChange s.decoder t.decoder :=
  event_decoder_same (fun u => by
    split
    · split
      · rw [endUpdate_decoder]; rfl
      · rfl
    · rfl) h

theorem execStatusBurstComplete_decoder {s t : State} (h : execStatusBurstComplete s = .next t) :
    DecoderChange s.decoder t.decoder :=
  event_decoder_same (fun u => by
    split
    · unfold State.presentPending State.afterBlock
      split_ifs <;> rfl
    · rfl) h

theorem execFetchComplete_decoder {s t : State} (h : execFetchComplete s = .next t) :
    DecoderChange s.decoder t.decoder :=
  event_decoder_same (fun u => by
    split
    · simp only [finishFetch, fetchJudge_decoder]
      split <;> rfl
    · rfl) h

/-! ### Taking a frame -/

@[simp] theorem takeUnmapped_decoder (s : State) (e : InboxEntry) (good : Bool) (seq : Seq) :
    (takeUnmapped s e good seq).decoder = s.decoder := by
  simp only [takeUnmapped]
  split
  · rfl
  · split
    · rfl
    · split <;> rfl

@[simp] theorem takeOfMapped_decoder (t : TagEntry) (e : InboxEntry) (good : Bool) (seq : Seq) (s : State) :
    (takeOfMapped t e good seq s).decoder = s.decoder := by
  have hlink : ∀ k c a (u : State), (raiseLink k c a u).decoder = u.decoder := fun k c a u => by
    unfold raiseLink
    split <;> rfl
  simp only [takeOfMapped]
  split
  · simp only [handOn, offerFrame_decoder, hlink]
    rfl
  · rw [hlink]
    rfl

@[simp] theorem takeJudged_decoder (inj : Option InjectKind) (e : InboxEntry) (s : State) :
    (takeJudged inj e s).decoder = s.decoder := by
  simp only [takeJudged]
  split <;> simp

@[simp] theorem takeEntry_decoder (e : InboxEntry) (s : State) : (takeEntry e s).decoder = s.decoder := by
  unfold takeEntry
  split <;> simp

theorem execTakeFrame_decoder {s t : State} (h : execTakeFrame s = .next t) : DecoderChange s.decoder t.decoder :=
  event_decoder_same (fun u => by split <;> simp) h

/-! ### Time -/

@[simp] theorem timerExpires_decoder (b : BayNo) (x : BayTimer) (s : State) :
    (timerExpires b x s).decoder = s.decoder := by
  simp [timerExpires]

@[simp] theorem yardTick_decoder (s : State) : (yardTick s).decoder = s.decoder := by
  unfold yardTick counterRewrite tickTimers
  split_ifs <;> rfl

@[simp] theorem passTicks_decoder (k : Nat) (s : State) : (passTicks k s).decoder = s.decoder := by
  induction k generalizing s with
  | zero => rfl
  | succ k ih => simp [passTicks, ih]

@[simp] theorem elapse_decoder (n : Nat) (s : State) : (elapse n s).decoder = s.decoder :=
  passTicks_decoder _ s

@[simp] theorem refclkPeriod_decoder (s : State) : (refclkPeriod s).decoder = s.decoder := by
  unfold refclkPeriod
  split
  · rfl
  · exact yardTick_decoder s

theorem execHaltComplete_decoder {s t : State} (h : execHaltComplete s = .next t) :
    DecoderChange s.decoder t.decoder := by
  unfold execHaltComplete happen completeHalt at h
  cases h
  refine .of_eq ?_
  split_ifs <;> simp

theorem execReclaimExpiry_decoder {place : Fin 4} {s t : State} (h : execReclaimExpiry place s = .next t) :
    DecoderChange s.decoder t.decoder :=
  event_decoder_same (fun u => by
    split
    · exact elapse_decoder _ u
    · rfl) h

theorem execLockHoldExpiry_decoder {s t : State} (h : execLockHoldExpiry s = .next t) :
    DecoderChange s.decoder t.decoder :=
  event_decoder_same (fun u => by simp [breakLock]) h

/-! ### Feeders -/

@[simp] theorem raiseFeeder_decoder (f : FeederNo) (c : Condition) (s : State) :
    (raiseFeeder f c s).decoder = s.decoder := by
  unfold raiseFeeder
  split <;> rfl

@[simp] theorem becomeActive_decoder (f : FeederNo) (s : State) : (becomeActive f s).decoder = s.decoder := by
  simp [becomeActive]

@[simp] theorem tripFeeder_decoder (f : FeederNo) (s : State) : (tripFeeder f s).decoder = s.decoder := by
  have hrevoke : ∀ (u : State) (b : BayNo), (revokeOne f u b).decoder = u.decoder := fun _ _ => rfl
  simp only [tripFeeder, foldl_decoder (fun u b => offerHeld_decoder b .revocation u), wantRewrite_decoder,
    raiseFeeder_decoder, setFeeder_decoder, foldl_decoder hrevoke]

theorem execFeederOkFall_decoder {f : FeederNo} {s t : State} (h : execFeederOkFall f s = .next t) :
    DecoderChange s.decoder t.decoder := by
  unfold execFeederOkFall at h
  split at h
  · refine event_decoder_same (fun u => ?_) h
    unfold lineFalls
    split
    · rfl
    · exact tripFeeder_decoder f _
  · cases h
    exact .same _

theorem execFeederOkRise_decoder {f : FeederNo} {s t : State} (h : execFeederOkRise f s = .next t) :
    DecoderChange s.decoder t.decoder := by
  unfold execFeederOkRise at h
  split at h
  · refine event_decoder_same (fun u => ?_) h
    unfold lineRises
    split
    · split
      · exact becomeActive_decoder f _
      · rfl
    · rfl
  · cases h
    exact .same _

/-! ### RESET_N -/

theorem execResetNFall_decoder {s t : State} (h : execResetNFall s = .next t) : DecoderChange s.decoder t.decoder := by
  unfold execResetNFall at h
  cases h
  split
  · exact .reset _ _
  · exact .same _

theorem execResetNRelease_decoder {memsize : BitVec 2} {s t : State} (h : execResetNRelease memsize s = .next t) :
    DecoderChange s.decoder t.decoder := by
  unfold execResetNRelease at h
  cases h
  split
  · exact .same _
  · rw [settle_decoder]
    exact .reset _ _

/-! ## The step -/

/-- What each row of the table can do to the decoder. -/
theorem exec_decoder {i : Instr} {s t : State} (h : exec i s = .next t) : DecoderChange s.decoder t.decoder := by
  cases i with
  | plainRequest | inboxFrameWrite | bayRecordRead | lockedBayRecordRead | settingsWrite => exact guarded_decoder h
  | argumentWrite | consumerIndexWrite | commandWordZero | setWindow | setTiming | run | halt | setTime | mapTag
  | unmapTag | setLoading | forceDefrost | cancelDefrost | setFeeder | assignFeeder | inject | clearCounters =>
    exact requestStep_decoder h
  | unknownCommand => exact execUnknownCommand_decoder h
  | memoryPortGrant => exact execMemoryPortGrant_decoder h
  | passThroughBurstComplete => exact execPassThroughBurstComplete_decoder h
  | recordBurstComplete => exact execRecordBurstComplete_decoder h
  | noticeBurstComplete | resultWordComplete =>
    refine event_decoder_same (fun u => ?_) h
    rfl
  | statusBurstComplete => exact execStatusBurstComplete_decoder h
  | fetchComplete => exact execFetchComplete_decoder h
  | takeFrame => exact execTakeFrame_decoder h
  | haltComplete => exact execHaltComplete_decoder h
  | silenceExpiry b | startWindowExpiry b | maxDefrostExpiry b | stopWindowExpiry b | drainExpiry b
  | doorTimerExpiry b => exact event_decoder_same (timerExpires_decoder b _) h
  | restoreTimerExpiry f => exact event_decoder_same (becomeActive_decoder f) h
  | reclaimExpiry => exact execReclaimExpiry_decoder h
  | lockHoldExpiry => exact execLockHoldExpiry_decoder h
  | yardTick => exact event_decoder_same yardTick_decoder h
  | feederOkFall => exact execFeederOkFall_decoder h
  | feederOkRise => exact execFeederOkRise_decoder h
  | resetNFall => exact execResetNFall_decoder h
  | resetNRelease => exact execResetNRelease_decoder h

theorem step_decoder {s t : State} (h : step s = .next t) : DecoderChange s.decoder t.decoder := by
  unfold step at h
  split at h
  · rename_i c rest _
    exact exec_decoder (s := { s with pending := rest }) h
  · exact event_decoder_same refclkPeriod_decoder h

/-- Settles O56, from the changes a step can make of the Window Decoder (`step_decoder`), each of which keeps R7. -/
theorem windowsStayValid : Obligations.WindowsStayValid := by
  unfold Obligations.WindowsStayValid
  intro s t hs h
  rw [windowsValid_iff] at hs ⊢
  exact (step_decoder h).valid hs

end Sys2Proof.Machine

/-! PROOFS. R3, R20, R23: where a reading frame written to the INBOX window is routed, and what the Inbox Queue answers. -/

namespace Sys2Proof.Machine

/-! ## The words of a window (R3, R5, R7) -/

theorem Window.covers_iff (w : Window) (a : Nat) : w.covers a = true ↔ InWindow w a := by
  simp only [Window.covers, Window.on, Bool.and_eq_true, decide_eq_true_eq]
  exact and_assoc

/-- The table leaves the setup page out, and the setup page is the last of memory, so a window lies below it (R4, R7). -/
theorem Decoder.Valid.lt_setupBase {d : Decoder} (hd : d.Valid) (n : WindowName) {a : Nat}
    (ha : InWindow (d.windows.get n) a) : a < d.setupBase := by
  obtain ⟨hon, -, hlast⟩ := ha
  obtain ⟨hlimit, -, hsetup, -⟩ := hd.fits n (decide_eq_true hon)
  have hbelow : (d.windows.get n).limit < pagesOf d.memSize - 1 := by
    by_contra hge
    exact hsetup ⟨by omega, by omega⟩
  calc a < ((d.windows.get n).limit + 1) * 1024 := hlast
    _ ≤ (pagesOf d.memSize - 1) * 1024 := Nat.mul_le_mul_right 1024 hbelow

/-- The setup area holds whole aligned 8-word blocks, so a request that begins below it and crosses no such block ends
inside memory (R3, step 1). -/
theorem badShape_of_lt_setupBase {d : Decoder} {r : Request} (ha : r.addr.toNat < d.setupBase)
    (hblock : r.addr.toNat % 8 + r.access.length ≤ 8) : badShape d r = false := by
  simp only [badShape, Bool.or_eq_false_iff, decide_eq_false_iff_not]
  simp only [Decoder.setupBase, Decoder.words] at ha ⊢
  omega

/-! ## The route of an INBOX write (R3, R20) -/

/-- In RUN a write inside the INBOX window that crosses no aligned 8-word block is routed by its frame shape. -/
theorem route_inboxWrite {d : Decoder} (hd : d.Valid) (hrun : d.mode = .run) (i : Initiator) {a : WordAddr}
    {ws : List (Mask × Word)} (ha : InWindow d.windows.inbox a.toNat) (hblock : a.toNat % 8 + ws.length ≤ 8) :
    route d ⟨i, a, false, .write ws⟩ = routeInboxWrite d.windows.inbox.baseWord a.toNat ws := by
  have hbelow : a.toNat < d.setupBase := hd.lt_setupBase .inbox ha
  have hshape : badShape d ⟨i, a, false, .write ws⟩ = false := badShape_of_lt_setupBase hbelow hblock
  have hcovers := (Window.covers_iff _ _).2 ha
  simp [route, routeWindow, hshape, hbelow, hrun, hcovers]

/-- A frame written to the slot of radio address `n` has the frame shape (R19, R20). -/
theorem routeInboxWrite_slot {w : Window} {a : Nat} {n : RadioAddr} (ha : a = w.base * 1024 + n.toNat * 4) (hn : n ≠ 0)
    (w0 w1 w2 w3 : Word) :
    routeInboxWrite w.baseWord a [(15, w0), (15, w1), (15, w2), (15, w3)] = .inbox n ⟨w0, w1, w2, w3⟩ := by
  have haligned : a % 4 = 0 := by omega
  have hslot : (a - w.base * 1024) / 4 = n.toNat := by omega
  have hzero : n.toNat ≠ 0 := fun h => hn (BitVec.eq_of_toNat_eq h)
  simp [routeInboxWrite, Window.baseWord, haligned, hslot, hzero, fullMask]

/-! ## The Inbox Queue's answer (R23, R24) -/

theorem answerInbox_of_room (r : Request) (n : RadioAddr) (frame : Frame) {s : State} (h : s.inbox.length < 16) :
    answerInbox r n frame s.clearAnswer =
      completed { s with inbox := s.inbox ++ [⟨frame, n, s.clock.time⟩] } r.initiator (.done []) :=
  if_pos h

theorem answerInbox_of_full (r : Request) (n : RadioAddr) (frame : Frame) {s : State} (h : 16 ≤ s.inbox.length) :
    answerInbox r n frame s.clearAnswer = completed s r.initiator .retry :=
  if_neg (Nat.not_lt.2 h)

/-! ## INBOX_FRAME_WRITE -/

/-- A row that a bus can carry is the presentation of its request (log 7, log 17). -/
theorem exec_inboxFrameWrite {i : Initiator} {a : WordAddr} {ws : List (Mask × Word)} (s : State)
    (h : Request.wellFormed ⟨i, a, false, .write ws⟩ = true) :
    exec (.inboxFrameWrite i a ws) s = requestStep ⟨i, a, false, .write ws⟩ s :=
  if_pos h

/-- A frame written in RUN to the slot of a radio address reaches the Inbox Queue. -/
theorem exec_inboxFrameWrite_slot {i : Initiator} {a : WordAddr} {n : RadioAddr} {s : State} (w0 w1 w2 w3 : Word)
    (hacc : Accepts s) (hnot : NotHolder s i) (hvalid : WindowsValid s) (hrun : s.decoder.mode = .run)
    (hin : InWindow s.decoder.windows.inbox a.toNat)
    (ha : a.toNat = s.decoder.windows.inbox.base * 1024 + n.toNat * 4) (hn : n ≠ 0) :
    exec (.inboxFrameWrite i a [(15, w0), (15, w1), (15, w2), (15, w3)]) s =
      .next
        (settle
          (answerInbox ⟨i, a, false, .write [(15, w0), (15, w1), (15, w2), (15, w3)]⟩ n ⟨w0, w1, w2, w3⟩
            s.clearAnswer)) := by
  have hblock : a.toNat % 8 + [(15, w0), (15, w1), (15, w2), (15, w3)].length ≤ 8 := by
    simp only [List.length_cons, List.length_nil]
    omega
  have hdecoder : s.decoder.Valid := (windowsValid_iff s).1 hvalid
  rw [exec_inboxFrameWrite s rfl, requestStep_accepts hacc, present_of_not_holder (notHolder_releasedBy hnot),
    route_inboxWrite hdecoder hrun i hin hblock, routeInboxWrite_slot ha hn]
  rfl

/-- Settles O8: the frame reaches the Inbox Queue (`exec_inboxFrameWrite_slot`), which answers by its fill. -/
theorem inboxFrameIsTakenOrRetried : Obligations.InboxFrameIsTakenOrRetried := by
  unfold Obligations.InboxFrameIsTakenOrRetried
  intro i a w0 w1 w2 w3 n s hacc hnot hvalid hrun hin ha hn
  rw [exec_inboxFrameWrite_slot w0 w1 w2 w3 hacc hnot hvalid hrun hin ha hn]
  constructor
  · intro hroom
    rw [answerInbox_of_room _ _ _ (Nat.lt_succ_of_le hroom)]
  · intro hfull
    rw [answerInbox_of_full _ _ _ hfull]

end Sys2Proof.Machine

/-! PROOFS. R40, R43, R44: what a taken frame of a mapped radio leaves, and a take in HUNT and in PROVING. -/

namespace Sys2Proof.Machine

/-! ## Counting twice (R17, R195) -/

/-- The second of two counts leaves what it would leave alone, unless it takes back what the first one counted. -/
theorem count_count {s : State} {c d : Counters} (h : d = s.counters → c = s.counters) :
    (s.count c).count d = s.count d := by
  have hmark : (c != s.counters || d != c) = (d != s.counters) := by
    by_cases hd : d = s.counters
    · simp [h hd, hd]
    · by_cases hc : c = s.counters
      · simp [hc]
      · simp [bne_iff_ne.2 hc, bne_iff_ne.2 hd]
  simp only [State.count, Bool.or_assoc, hmark]

/-- Counting one frame taken. -/
def Counters.taken (c : Counters) : Counters := { c with framesTaken := satAdd c.framesTaken 1 }

/-- A further count that leaves the frames taken alone does not take back the frame counted. -/
theorem Counters.taken_eq_self {c : Counters} {f : Counters → Counters} (hf : ∀ x, (f x).framesTaken = x.framesTaken)
    (h : f c.taken = c) : c.taken = c := by
  have hcount : satAdd c.framesTaken 1 = c.framesTaken :=
    calc satAdd c.framesTaken 1 = (f c.taken).framesTaken := (hf c.taken).symm
      _ = c.framesTaken := by rw [h]
  simp [Counters.taken, hcount]

/-! ## The head entry and its injection (R40, R41) -/

/-- `s` after `e` has left the queue and used its injection; `frameTaken` counts on it: `count_headTaken`. -/
def headTaken (s : State) (e : InboxEntry) (rest : List InboxEntry) : State :=
  { s with
    inbox := rest
    link := { s.link with injection := if (injected s e).isSome then none else s.link.injection } }

@[simp] theorem headTaken_counters (s : State) (e : InboxEntry) (rest : List InboxEntry) :
    (headTaken s e rest).counters = s.counters := rfl

@[simp] theorem headTaken_params (s : State) (e : InboxEntry) (rest : List InboxEntry) :
    (headTaken s e rest).params = s.params := rfl

theorem count_headTaken (s : State) (e : InboxEntry) (rest : List InboxEntry) {f : Counters → Counters}
    (hf : ∀ x, (f x).framesTaken = x.framesTaken) :
    ((headTaken s e rest).count s.counters.taken).count (f s.counters.taken) = frameTaken s e rest f :=
  count_count (s := headTaken s e rest) (Counters.taken_eq_self hf)

theorem treatedSeq_injected (s : State) (e : InboxEntry) : treatedSeq (injected s e) e.frame = treated s e := rfl

theorem verdict_iff (s : State) (e : InboxEntry) : verdict (injected s e) e = true ↔ Good s e := by
  simp [verdict, Good]

theorem verdict_of_not_good {s : State} {e : InboxEntry} (h : ¬ Good s e) : verdict (injected s e) e = false :=
  eq_false_of_ne_true (mt (verdict_iff s e).1 h)

/-- A frame that no injection drops is judged, with the injection that names its radio used. -/
theorem takeEntry_of_not_drop {s : State} {e : InboxEntry} (rest : List InboxEntry) (h : injected s e ≠ some .drop) :
    takeEntry e { s with inbox := rest } = takeJudged (injected s e) e (headTaken s e rest) := by
  have hinj : ({ s with inbox := rest } : State).link.injectionFor e.radio = injected s e := rfl
  unfold takeEntry
  rw [hinj]
  unfold headTaken
  cases hk : injected s e with
  | none => rfl
  | some k =>
    cases k with
    | drop => exact absurd hk h
    | skip | badCheck => rfl

/-- Where R38 allows a take, TAKE_FRAME takes the head entry. -/
theorem exec_takeFrame {s : State} {e : InboxEntry} {rest : List InboxEntry} (h : Taking s e rest) :
    exec .takeFrame s = .next (settle (takeEntry e { s with inbox := rest })) := by
  obtain ⟨hlive, hmode, hinbox, hplace⟩ := h
  show execTakeFrame s = _
  unfold execTakeFrame
  rw [event_of_live hlive]
  simp [happen, hmode, hinbox, hplace]

/-! ## A frame of a mapped radio (R40, R48) -/

theorem withEntry_eq_setEntry (s : State) (t : TagEntry) : { s with link := s.link.setEntry t } = withEntry s t := by
  simp [withEntry, LinkTracker.setEntry]

/-- A judged frame of a mapped radio is counted and judged by its entry. -/
theorem takeJudged_mapped {inj : Option InjectKind} {e : InboxEntry} {s : State} {t : TagEntry}
    (h : s.link.entryOf e.radio = some t) :
    takeJudged inj e s = takeOfMapped t e (verdict inj e) (treatedSeq inj e.frame) (s.count s.counters.taken) := by
  simp only [takeJudged, State.count, Counters.taken, h]

theorem raiseLink_tracked (t : TagEntry) (arrival : Time) (s : State) :
    raiseLink t (some .tracked) arrival s = withLinkCondition s .tracked t arrival s.params.proofCount := rfl

/-- TAKE_FRAME of a mapped frame leaves what `takeMapped` makes of it: its entry, its counts on top of the frame taken, the
LINK condition and the handing on. -/
theorem exec_takeFrame_mapped {s : State} {e : InboxEntry} {rest : List InboxEntry} {t t' : TagEntry}
    {f : Counters → Counters} {on : Bool} {raised : Option Code} (htake : Taking s e rest)
    (hdrop : injected s e ≠ some .drop) (hentry : s.link.entryOf e.radio = some t)
    (hf : ∀ x, (f x).framesTaken = x.framesTaken)
    (hk : takeMapped s.params t s.counters.taken (verdict (injected s e) e) (treated s e)
      = ⟨t', f s.counters.taken, on, raised⟩) :
    exec .takeFrame s =
      .next
        (settle
          (let u := raiseLink t' raised e.arrival (withEntry (frameTaken s e rest f) t')
          if on then handOn (e.handed (treated s e) t.bay) u else u)) := by
  rw [exec_takeFrame htake, takeEntry_of_not_drop rest hdrop, takeJudged_mapped (s := headTaken s e rest) hentry,
    treatedSeq_injected]
  simp only [takeOfMapped, count_counters, count_params, headTaken_counters, headTaken_params, hk,
    count_headTaken s e rest hf, withEntry_eq_setEntry]

/-- A mapped frame that raises no condition and is not handed on is discarded: its entry and its counts are all that is left
of it. -/
theorem exec_takeFrame_discarded {s : State} {e : InboxEntry} {rest : List InboxEntry} {t t' : TagEntry}
    {f : Counters → Counters} (htake : Taking s e rest) (hdrop : injected s e ≠ some .drop)
    (hentry : s.link.entryOf e.radio = some t) (hf : ∀ x, (f x).framesTaken = x.framesTaken)
    (hk : takeMapped s.params t s.counters.taken (verdict (injected s e) e) (treated s e)
      = ⟨t', f s.counters.taken, false, none⟩) :
    exec .takeFrame s = .next (settle (withEntry (frameTaken s e rest f) t')) := by
  rw [exec_takeFrame_mapped htake hdrop hentry hf hk]
  simp only [raiseLink, Bool.false_eq_true, if_false]

/-- The mapped frame that makes its entry TRACKED raises the LINK condition of R48 and is handed on. -/
theorem exec_takeFrame_tracked {s : State} {e : InboxEntry} {rest : List InboxEntry} {t t' : TagEntry}
    (htake : Taking s e rest) (hdrop : injected s e ≠ some .drop) (hentry : s.link.entryOf e.radio = some t)
    (hk : takeMapped s.params t s.counters.taken (verdict (injected s e) e) (treated s e)
      = ⟨t', s.counters.taken, true, some .tracked⟩) :
    exec .takeFrame s =
      .next
        (settle
          (handOn ⟨e.frame, treated s e, e.radio, e.arrival, t.bay⟩
            (withLinkCondition (withEntry (frameTaken s e rest id) t') .tracked t' e.arrival s.params.proofCount))) := by
  rw [exec_takeFrame_mapped (f := id) htake hdrop hentry (fun _ => rfl) hk]
  simp only [raiseLink_tracked, if_true, InboxEntry.handed]
  rfl

/-! ## The judgement in HUNT and in PROVING (R43, R44) -/

theorem takeMapped_hunt (p : Params) {t : TagEntry} (h : t.track = .hunt) (c : Counters) (good : Bool) (q : Seq) :
    takeMapped p t c good q = takeInHunt t c good q := by
  simp [takeMapped, h]

theorem takeMapped_proving (p : Params) {t : TagEntry} (h : t.track = .proving) (c : Counters) (good : Bool) (q : Seq) :
    takeMapped p t c good q = takeInProving p t c good q := by
  simp [takeMapped, h]

theorem takeInProving_duplicate (p : Params) {t : TagEntry} (c : Counters) {q : Seq} (h : q = t.lastSeq) :
    takeInProving p t c true q = ⟨t, c.duplicate, false, none⟩ := by
  simp [takeInProving, h]

theorem takeInProving_proved {p : Params} {t : TagEntry} (c : Counters) {q : Seq} (h : q = t.lastSeq + 1)
    (hproof : p.proofCount ≤ t.proof + 1) :
    takeInProving p t c true q =
      ⟨{ t with track := .tracked, proof := 0, bad := 0, lastSeq := q }, c, true, some .tracked⟩ := by
  simp [takeInProving, h, hproof]

theorem takeInProving_next {p : Params} {t : TagEntry} (c : Counters) {q : Seq} (h : q = t.lastSeq + 1)
    (hproof : t.proof + 1 < p.proofCount) :
    takeInProving p t c true q = ⟨{ t with proof := t.proof + 1, lastSeq := q }, c, false, none⟩ := by
  simp [takeInProving, h, Nat.not_le.2 hproof]

theorem takeInProving_restart (p : Params) {t : TagEntry} (c : Counters) {q : Seq} (hdup : q ≠ t.lastSeq)
    (hnext : q ≠ t.lastSeq + 1) :
    takeInProving p t c true q = ⟨{ t with proof := 1, lastSeq := q }, c, false, none⟩ := by
  simp only [takeInProving, if_neg hdup, if_neg hnext]
  rfl

/-! ## The takes -/

/-- Settles O36, from what TAKE_FRAME leaves of a mapped frame (`exec_takeFrame_mapped`) and the judgement of each row. -/
theorem huntAndProvingTakes : Obligations.HuntAndProvingTakes := by
  unfold Obligations.HuntAndProvingTakes
  constructor
  · intro e rest t s htake hdrop hentry htrack
    refine ⟨fun hgood => ?_, fun hbad => ?_⟩
    · refine exec_takeFrame_discarded htake hdrop hentry (fun _ => rfl) ?_
      rw [(verdict_iff s e).2 hgood, takeMapped_hunt _ htrack]
      rfl
    · refine exec_takeFrame_discarded htake hdrop hentry (fun _ => rfl) ?_
      rw [verdict_of_not_good hbad, takeMapped_hunt _ htrack]
      rfl
  · intro e rest t t' s htake hdrop hentry htrack
    refine ⟨fun hgood hdup => ?_, fun hgood hnext hproof ht' => ?_, fun hgood hnext hproof => ?_,
      fun hgood hdup hnext => ?_, fun hbad => ?_⟩
    · refine exec_takeFrame_discarded htake hdrop hentry (fun _ => rfl) ?_
      rw [(verdict_iff s e).2 hgood, takeMapped_proving _ htrack, takeInProving_duplicate _ _ hdup]
      rfl
    · subst ht'
      refine exec_takeFrame_tracked htake hdrop hentry ?_
      rw [(verdict_iff s e).2 hgood, takeMapped_proving _ htrack, takeInProving_proved _ hnext hproof]
    · refine exec_takeFrame_discarded htake hdrop hentry (fun _ => rfl) ?_
      rw [(verdict_iff s e).2 hgood, takeMapped_proving _ htrack, takeInProving_next _ hnext hproof]
      rfl
    · refine exec_takeFrame_discarded htake hdrop hentry (fun _ => rfl) ?_
      rw [(verdict_iff s e).2 hgood, takeMapped_proving _ htrack, takeInProving_restart _ _ hdup hnext]
      rfl
    · refine exec_takeFrame_discarded htake hdrop hentry (fun _ => rfl) ?_
      rw [verdict_of_not_good hbad, takeMapped_proving _ htrack]
      rfl

end Sys2Proof.Machine

/-! PROOFS. What one step can do, said once: every step is a run of `Change`s, so that an invariant is proved over the
changes and holds after every step. -/

namespace Sys2Proof.Machine

/-- The changes a step is made of: what each event does where its condition holds, a claim and a presentation of a step's end,
the moves of pins, and the queue's own. -/
inductive Change : State → State → Prop
  | queue (q : List Instr) (s : State) : Change s { s with pending := q }
  | line (f : FeederNo) (high : Bool) (s : State) : Change s (s.setLine f high)
  | resetFalls (bits : BitVec 8) (s : State) : Change s (heldInReset s bits)
  | resetReleases (memsize : BitVec 2) (s : State) : Change s (releaseReset memsize s)
  | claims (x : Source) (s : State) (ready : noticeReady s = some x) : Change s (claim s x)
  | presents (s : State) : Change s (statusSettle s)
  | counts (c : Counters) (s : State) : Change s (s.count c)
  | haltCompletes (s : State) (due : s.haltDue = true) : Change s (completeHalt s)
  | clearsAnswer (s : State) : Change s s.clearAnswer
  | unlocks (l : BayLock) (s : State) (held : s.access.lock = some l) :
    Change s (unlocked l.bay { s with access := { s.access with lock := none } })
  | answers (r : Request) (s : State) (free : s.front.outstanding = none) : Change s (answer r s (route s.decoder r))
  | grantsPort (q : Requester) (s : State) : Change s (grantPort q s)
  | requestEnds (o : Outstanding) (s : State) (out : s.front.outstanding = some o) :
    Change s (finishRequest o.request (requestData s.mem o.request) (s.endBurst .passThrough) o.path)
  | firstBurstEnds (x : RecordBurst) (rest : List RecordBurst) (s : State) (queued : s.bursts = x :: rest)
      (first : x.ends = false) : Change s (s.endBurst .record).popBurst
  | updateEnds (x : RecordBurst) (rest : List RecordBurst) (s : State) (queued : s.bursts = x :: rest)
      (last : x.ends = true) : Change s (endUpdate x.bay (s.endBurst .record).popBurst)
  | noticeEnds (s : State) : Change s (s.endBurst .notice).advanceProducer
  | blockEnds (n : Nat) (ws : List Word) (s : State) (shown : s.status.presented = some (.block n ws)) :
    Change s (((s.endBurst .status).clearPresented).afterBlock n).presentPending
  | resultEnds (w : Word) (s : State) (shown : s.status.presented = some (.result w)) :
    Change s ((s.endBurst .status).clearPresented).commandDone
  | fetchEnds (x : Fetch) (s : State) (under : s.access.fetch = some x) : Change s (finishFetch x s)
  | takes (e : InboxEntry) (rest : List InboxEntry) (s : State) (running : s.decoder.mode = .run)
      (head : s.inbox = e :: rest) : Change s (takeEntry e { s with inbox := rest })
  | expires (b : BayNo) (t : BayTimer) (s : State) (due : ((s.bay b).timer t).due = true) :
    Change s (timerExpires b t s)
  | activates (f : FeederNo) (s : State) (inactive : (s.feeder f).state ≠ .active) : Change s (becomeActive f s)
  | restores (f : FeederNo) (s : State) (tripped : (s.feeder f).state = .tripped) : Change s (startRestore f s)
  | trips (f : FeederNo) (s : State) : Change s (tripFeeder f s)
  | reclaims (k : ReadKey) (s : State) : Change s (s.removeEntry k)
  | passes (n : Nat) (s : State) (short : s.clock.base + n < secondPeriods) : Change s (passPeriods n s)
  | ticks (s : State) : Change s (yardTick s)

/-- A run of changes. -/
abbrev Changes : State → State → Prop := Relation.ReflTransGen Change

theorem Changes.one {s t : State} (h : Change s t) : Changes s t := Relation.ReflTransGen.single h

/-- A property that every change keeps is kept by every run of changes. -/
theorem Changes.keeps {P : State → Prop} (step : ∀ s t, Change s t → P s → P t) {s t : State} (h : Changes s t)
    (hs : P s) : P t := by
  induction h with
  | refl => exact hs
  | tail _ hc ih => exact step _ _ hc ih

/-! ## The parts of an event -/

theorem noticeSettle_changes (s : State) : Changes s (noticeSettle s) := by
  unfold noticeSettle
  split
  · rename_i x hx
    exact .one (.claims x s hx)
  · exact .refl

theorem settle_changes (s : State) : Changes s (settle s) :=
  (noticeSettle_changes s).tail (.presents _)

theorem haltFirst_changes (s : State) : Changes s (haltFirst s) := by
  unfold haltFirst
  split
  · rename_i h
    exact (Changes.one (.haltCompletes s h)).trans (settle_changes _)
  · exact .refl

/-- An event is a run of changes when what it does where its condition holds is one. -/
theorem event_changes {s t : State} {c : State → Bool} {f : State → State}
    (hf : ∀ u, c u = true → Changes u (f u)) (h : event s c f = .next t) : Changes s t := by
  unfold event at h
  cases h
  split
  · refine (haltFirst_changes s).trans ?_
    unfold happen
    split
    · rename_i hc
      exact (hf _ hc).trans (settle_changes _)
    · exact .refl
  · exact .refl

theorem releaseLock_changes (s : State) : Changes s (releaseLock s) := by
  unfold releaseLock
  split
  · rename_i l hl
    exact .one (.unlocks l s hl)
  · exact .refl

theorem releaseAtPresentation_changes (r : Request) (s : State) : Changes s (releaseAtPresentation r s) := by
  unfold releaseAtPresentation
  split
  · exact (releaseLock_changes s).trans (noticeSettle_changes _)
  · exact .refl

theorem claim_front (s : State) (x : Source) : (claim s x).front = s.front := by cases x <;> rfl

@[simp] theorem noticeSettle_front (s : State) : (noticeSettle s).front = s.front := by
  unfold noticeSettle
  split
  · exact claim_front _ _
  · rfl

theorem releaseLock_outstanding {s : State} (h : s.front.outstanding = none) :
    (releaseLock s).front.outstanding = none := by
  unfold releaseLock
  split
  · rename_i l _
    have hreq := (unlocked_moves l.bay { s with access := { s.access with lock := none } }).request
    simpa [h] using hreq
  · exact h

theorem releaseAtPresentation_outstanding {r : Request} {s : State} (h : s.front.outstanding = none) :
    (releaseAtPresentation r s).front.outstanding = none := by
  unfold releaseAtPresentation
  split
  · rw [noticeSettle_front]
    exact releaseLock_outstanding h
  · exact h

theorem present_changes {r : Request} {s : State} (h : s.front.outstanding = none) : Changes s (present r s) :=
  ((Changes.one (.clearsAnswer s)).trans (releaseAtPresentation_changes r _)).tail
    (.answers r _ (releaseAtPresentation_outstanding h))

theorem requestStep_changes {r : Request} {s t : State} (h : requestStep r s = .next t) : Changes s t :=
  event_changes (fun _ hu => present_changes (by simpa using hu)) h

theorem guarded_changes {ok : Bool} {r : Request} {s t : State} (h : guarded ok r s = .next t) : Changes s t := by
  unfold guarded at h
  split at h
  · exact requestStep_changes h
  · cases h

theorem execUnknownCommand_changes {i : Initiator} {code : Word} {s t : State}
    (h : execUnknownCommand i code s = .next t) : Changes s t := by
  unfold execUnknownCommand at h
  split at h
  · exact requestStep_changes h
  · cases h

/-! ## Bursts -/

theorem execMemoryPortGrant_changes {s t : State} (h : execMemoryPortGrant s = .next t) : Changes s t :=
  event_changes (fun u _ => by
    split
    · exact .one (.grantsPort _ u)
    · exact .refl) h

theorem execPassThroughBurstComplete_changes {s t : State} (h : execPassThroughBurstComplete s = .next t) :
    Changes s t :=
  event_changes (fun u _ => by
    split
    · rename_i o ho
      exact .one (.requestEnds o u ho)
    · exact .refl) h

theorem execRecordBurstComplete_changes {s t : State} (h : execRecordBurstComplete s = .next t) : Changes s t :=
  event_changes (fun u _ => by
    split
    · rename_i x rest hx
      split
      · rename_i he
        exact .one (.updateEnds x rest u hx he)
      · rename_i he
        exact .one (.firstBurstEnds x rest u hx (by simpa using he))
    · exact .refl) h

theorem execStatusBurstComplete_changes {s t : State} (h : execStatusBurstComplete s = .next t) : Changes s t :=
  event_changes (fun u _ => by
    split
    · rename_i n ws hp
      exact .one (.blockEnds n ws u hp)
    · exact .refl) h

theorem execResultWordComplete_changes {s t : State} (h : execResultWordComplete s = .next t) : Changes s t :=
  event_changes (fun u hu => by
    simp only [Bool.and_eq_true, State.resultPresented] at hu
    cases hp : u.status.presented with
    | none => simp [hp] at hu
    | some x =>
      cases x with
      | block n ws => simp [hp] at hu
      | result w => exact .one (.resultEnds w u hp)) h

theorem execFetchComplete_changes {s t : State} (h : execFetchComplete s = .next t) : Changes s t :=
  event_changes (fun u _ => by
    split
    · rename_i x hx
      exact .one (.fetchEnds x u hx)
    · exact .refl) h

/-! ## The other events -/

theorem execTakeFrame_changes {s t : State} (h : execTakeFrame s = .next t) : Changes s t :=
  event_changes (fun u hu => by
    simp only [Bool.and_eq_true, beq_iff_eq] at hu
    split
    · rename_i e rest he
      exact .one (.takes e rest u hu.1.1 he)
    · exact .refl) h

theorem execHaltComplete_changes {s t : State} (h : execHaltComplete s = .next t) : Changes s t := by
  unfold execHaltComplete happen at h
  cases h
  split
  · split
    · rename_i hd
      exact (Changes.one (.haltCompletes s hd)).trans (settle_changes _)
    · exact .refl
  · exact .refl

/-- The expiry of a timer that is due, whatever else its row asks. -/
theorem expiry_changes {s t : State} {b : BayNo} {x : BayTimer} {c : State → Bool}
    (hc : ∀ u, c u = true → u.timerDue b x = true) (h : event s c (timerExpires b x) = .next t) : Changes s t :=
  event_changes (fun u hu => by
    have hd := hc u hu
    simp only [State.timerDue, Bool.and_eq_true] at hd
    exact .one (.expires b x u hd.2)) h

theorem timerDue_of_defrostDue {b : BayNo} {d : DefrostState} (u : State) (h : u.defrostDue b d = true) :
    u.timerDue b .defrost = true := by
  simp only [State.defrostDue, Bool.and_eq_true] at h
  exact h.1

theorem execRestoreTimerExpiry_changes {f : FeederNo} {s t : State} (h : execRestoreTimerExpiry f s = .next t) :
    Changes s t :=
  event_changes (fun u hu => by
    simp only [Bool.and_eq_true, beq_iff_eq] at hu
    exact .one (.activates f u (by simp [hu.1.2]))) h

theorem passTicks_changes (k : Nat) (s : State) : Changes s (passTicks k s) := by
  induction k generalizing s with
  | zero => exact .refl
  | succ k ih => exact ((Changes.one (.ticks s)).trans (settle_changes _)).trans (ih _)

theorem claim_clock (s : State) (x : Source) : (claim s x).clock = s.clock := by cases x <;> rfl

@[simp] theorem settle_clock (s : State) : (settle s).clock = s.clock := by
  unfold settle
  rw [statusSettle_eq]
  unfold noticeSettle
  split
  · exact claim_clock _ _
  · rfl

@[simp] theorem yardTick_base (s : State) : (yardTick s).clock.base = 0 := by
  unfold yardTick counterRewrite tickTimers
  split_ifs <;> rfl

theorem passTicks_succ_base (k : Nat) (s : State) : (passTicks (k + 1) s).clock.base = 0 := by
  induction k generalizing s with
  | zero => simp [passTicks]
  | succ k ih => exact ih _

/-- After the ticks within `n` periods the rest of them does not complete the second base's count. -/
theorem elapse_short (n : Nat) (s : State) :
    (passTicks ((s.clock.base + n) / secondPeriods) s).clock.base
      + ((s.clock.base + n) % secondPeriods - (passTicks ((s.clock.base + n) / secondPeriods) s).clock.base)
      < secondPeriods := by
  have hpos : 0 < secondPeriods := by decide
  have hmod := Nat.mod_lt (s.clock.base + n) hpos
  cases hk : (s.clock.base + n) / secondPeriods with
  | zero =>
    have hlt : s.clock.base + n < secondPeriods := (Nat.div_eq_zero_iff_lt hpos).1 hk
    simp only [passTicks]
    omega
  | succ k =>
    rw [passTicks_succ_base]
    omega

theorem elapse_changes (n : Nat) (s : State) : Changes s (elapse n s) :=
  (passTicks_changes _ s).tail (.passes _ _ (elapse_short n s))

theorem refclkPeriod_changes (s : State) : Changes s (refclkPeriod s) := by
  unfold refclkPeriod
  split
  · rename_i h
    exact .one (.passes 1 s h)
  · exact .one (.ticks s)

theorem execReclaimExpiry_changes {place : Fin 4} {s t : State} (h : execReclaimExpiry place s = .next t) :
    Changes s t :=
  event_changes (fun u _ => by
    split
    · exact ((elapse_changes _ u).tail (.reclaims _ _)).tail (.counts _ _)
    · exact .refl) h

theorem execLockHoldExpiry_changes {s t : State} (h : execLockHoldExpiry s = .next t) : Changes s t :=
  event_changes (fun u _ => ((elapse_changes _ u).tail (.counts _ _)).trans (releaseLock_changes _)) h

theorem execFeederOkFall_changes {f : FeederNo} {s t : State} (h : execFeederOkFall f s = .next t) : Changes s t := by
  unfold execFeederOkFall at h
  split at h
  · refine event_changes (fun u _ => (Changes.one (.line f false u)).trans ?_) h
    unfold lineFalls
    split
    · exact .refl
    · exact Changes.one (.trips f _)
  · cases h
    exact .one (.line f false s)

theorem execFeederOkRise_changes {f : FeederNo} {s t : State} (h : execFeederOkRise f s = .next t) : Changes s t := by
  unfold execFeederOkRise at h
  split at h
  · refine event_changes (fun u _ => (Changes.one (.line f true u)).trans ?_) h
    unfold lineRises
    split
    · rename_i ht
      split
      · exact Changes.one (.activates f _ (by simp [ht]))
      · exact Changes.one (.restores f _ ht)
    · exact .refl
  · cases h
    exact .one (.line f true s)

theorem execResetNFall_changes {s t : State} (h : execResetNFall s = .next t) : Changes s t := by
  unfold execResetNFall at h
  cases h
  split
  · exact .one (.resetFalls _ s)
  · exact .refl

theorem execResetNRelease_changes {m : BitVec 2} {s t : State} (h : execResetNRelease m s = .next t) : Changes s t := by
  unfold execResetNRelease at h
  cases h
  split
  · exact .refl
  · exact (Changes.one (.resetReleases m s)).trans (settle_changes _)

/-! ## The step -/

/-- Every row of the table is a run of changes. -/
theorem exec_changes {i : Instr} {s t : State} (h : exec i s = .next t) : Changes s t := by
  cases i with
  | plainRequest | inboxFrameWrite | bayRecordRead | lockedBayRecordRead | settingsWrite => exact guarded_changes h
  | argumentWrite | consumerIndexWrite | commandWordZero | setWindow | setTiming | run | halt | setTime | mapTag
  | unmapTag | setLoading | forceDefrost | cancelDefrost | setFeeder | assignFeeder | inject | clearCounters =>
    exact requestStep_changes h
  | unknownCommand => exact execUnknownCommand_changes h
  | memoryPortGrant => exact execMemoryPortGrant_changes h
  | passThroughBurstComplete => exact execPassThroughBurstComplete_changes h
  | recordBurstComplete => exact execRecordBurstComplete_changes h
  | noticeBurstComplete => exact event_changes (fun u _ => .one (.noticeEnds u)) h
  | statusBurstComplete => exact execStatusBurstComplete_changes h
  | resultWordComplete => exact execResultWordComplete_changes h
  | fetchComplete => exact execFetchComplete_changes h
  | takeFrame => exact execTakeFrame_changes h
  | haltComplete => exact execHaltComplete_changes h
  | silenceExpiry b | doorTimerExpiry b => exact expiry_changes (fun _ hu => hu) h
  | startWindowExpiry b | maxDefrostExpiry b | stopWindowExpiry b | drainExpiry b =>
    exact expiry_changes timerDue_of_defrostDue h
  | restoreTimerExpiry f => exact execRestoreTimerExpiry_changes h
  | reclaimExpiry => exact execReclaimExpiry_changes h
  | lockHoldExpiry => exact execLockHoldExpiry_changes h
  | yardTick => exact event_changes (fun u _ => .one (.ticks u)) h
  | feederOkFall => exact execFeederOkFall_changes h
  | feederOkRise => exact execFeederOkRise_changes h
  | resetNFall => exact execResetNFall_changes h
  | resetNRelease => exact execResetNRelease_changes h

theorem step_changes {s t : State} (h : step s = .next t) : Changes s t := by
  unfold step at h
  split at h
  · rename_i c rest _
    exact .head (.queue rest s) (exec_changes h)
  · exact event_changes (fun u _ => refclkPeriod_changes u) h

/-- The packaged induction: a property that every change keeps is kept by every step. -/
theorem step_keeps {P : State → Prop} (change : ∀ s t, Change s t → P s → P t) {s t : State} (hs : P s)
    (h : step s = .next t) : P t :=
  (step_changes h).keeps change hs

end Sys2Proof.Machine

/-! PROOFS. What the Check Engine and the Feeder Arbiter do, update by update: every operation of Update.lean is a run of
`Deed`s, each of which leaves the tables in step where a `Move` may not. -/

namespace Sys2Proof.Machine

/-! ## An update with its reports applied (R66, R110) -/

/-- The beginning of an update with its reports applied, before the Feeder Arbiter acts on them: `commit_eq`. -/
def opened (b : BayNo) (w : Work) (full : Bool) (s : State) : State :=
  (inReportOrder w.reports).foldl (applyReport b) (commitCore b w full s)

theorem commit_eq (b : BayNo) (w : Work) (full : Bool) (s : State) :
    commit b w full s =
      (allFeeders.filter fun f => w.reports.any fun r => r.feeder == f).foldl (fun u f => act f u) (opened b w full s) :=
  rfl

/-- The updates that begin at a bay as it stands, by what begins them: an expiry, a revocation, a frame, a bay command. -/
inductive Begun (s : State) (b : BayNo) : Work → Prop
  | expiry (t : BayTimer) : Begun s b (Work.expires (s.ctx b) t (startWork b s))
  | revocation : Begun s b (startWork b s)
  | frame (h : HandedFrame) (fits : frameFits (s.bay b) h = true) : Begun s b (Work.evaluate (s.ctx b) h (startWork b s))
  | loading (on : Bool) (occupied : (s.bay b).occupied = true) : Begun s b ((startWork b s).setLoading (s.ctx b) on)
  | forced (occupied : (s.bay b).occupied = true) (forcible : (s.bay b).defrost.state.forcible = true) :
    Begun s b ((startWork b s).demand (s.ctx b))
  | cancelled (occupied : (s.bay b).occupied = true) (cancellable : (s.bay b).defrost.state.cancellable = true) :
    Begun s b ((startWork b s).cancel (s.ctx b))
  | assigned (f : FeederNo) (occupied : (s.bay b).occupied = true)
      (forcible : (s.bay b).defrost.state.forcible = true) :
    Begun s b { startWork b s with bay := { (startWork b s).bay with feeder := f } }

/-- The work of a grant update (R91). -/
def grantWork (f : FeederNo) (b : BayNo) (s : State) : Work := (startWork b s).granted s.params f

/-- The work of a taken MAP_TAG, on the state its Tag Map entry stands in (R76). -/
def mapWork (a : RadioAddr) (b : BayNo) (k : UnitKind) (s : State) : Work := (startWork b s).mapTag (s.ctx b) a k

/-- What the Check Engine, the Feeder Arbiter and the fetcher do, one change at a time. Where `lawful` holds, an UNMAP_TAG
names the radio mapped to its bay, as `CommandLaw` has it. -/
inductive Deed (lawful : Prop) : State → State → Prop
  | opens (b : BayNo) (w : Work) (full : Bool) (s : State) (free : (s.bay b).inFlight = false)
      (unlocked : s.locked b = false) (work : Begun s b w) : Deed lawful s (opened b w full s)
  | maps (a : RadioAddr) (b : BayNo) (k : UnitKind) (s : State) (free : (s.bay b).inFlight = false)
      (unlocked : s.locked b = false) (new : s.link.entryOf a = none) (vacant : (s.bay b).occupied = false) :
    Deed lawful s (opened b (mapWork a b k (linkMap a b s)) true (linkMap a b s))
  | unmaps (a : RadioAddr) (b : BayNo) (s : State) (free : (s.bay b).inFlight = false)
      (unlocked : s.locked b = false) (occupied : (s.bay b).occupied = true)
      (named : lawful → ∃ t ∈ s.link.tagMap, t.radio = a ∧ t.bay = b) :
    Deed lawful s (opened b (startWork b (linkUnmap a b s)).unmapTag true (linkUnmap a b s))
  | grants (f : FeederNo) (b : BayNo) (s : State) (room : (s.feeder f).canGrant = true)
      (able : eligible s b = true) (queued : b ∈ (s.feeder f).queue.map Prod.fst) : Deed lawful s (grant f b s)
  | finishes (r : Result) (s : State) : Deed lawful s (s.finish r)
  | progresses (p : Progress) (s : State) : Deed lawful s (s.setProgress p)
  | lists (b : BayNo) (waiting held : List BayEvent) (deferred : Option HandedFrame) (s : State) :
    Deed lawful s (s.setBay b { s.bay b with waiting := waiting, held := held, deferred := deferred })
  | hands (h : Option HandedFrame) (s : State) : Deed lawful s { s with link := { s.link with handOff := h } }
  | counts (c : Counters) (s : State) : Deed lawful s (s.count c)
  | wants (s : State) : Deed lawful s s.wantRewrite
  | fetches (s : State) : Deed lawful s (fetchJudge s)

/-- A run of deeds. -/
abbrev Deeds (lawful : Prop) : State → State → Prop := Relation.ReflTransGen (Deed lawful)

/-- A property that every deed keeps is kept by every run of deeds. -/
theorem Deeds.keeps {lawful : Prop} {P : State → Prop} (step : ∀ s t, Deed lawful s t → P s → P t) {s t : State}
    (h : Deeds lawful s t) (hs : P s) : P t := by
  induction h with
  | refl => exact hs
  | tail _ hd ih => exact step _ _ hd ih

/-! ## The engine's operations, each equal on the bay it works at -/

theorem Moves.inFlight {s t : State} (h : Moves s t) {b : BayNo} (hs : (s.bay b).inFlight = true) :
    (t.bay b).inFlight = true := by
  refine h.keeps (P := fun s => (s.bay b).inFlight = true) (fun s t hm hs => ?_) hs
  cases hm with
  | begins x w full s free unlocked =>
    have hbay : (commitCore x w full s).bay b = (s.setBay x { w.bay with inFlight := true }).bay b := rfl
    rw [hbay, setBay_bay]
    split
    · rfl
    · exact hs
  | entry x e s same =>
    rw [setBay_bay]
    split
    · rename_i hx
      rw [same, hx, hs]
    · exact hs
  | _ => exact hs

@[simp] theorem commitCore_bay (b : BayNo) (w : Work) (full : Bool) (s : State) (x : BayNo) :
    (commitCore b w full s).bay x = if b = x then { w.bay with inFlight := true } else s.bay x :=
  setBay_bay s b x _

@[simp] theorem commitCore_feeders (b : BayNo) (w : Work) (full : Bool) (s : State) :
    (commitCore b w full s).feeders = s.feeders := rfl

/-- A grant moves its bay from the queue to the grant list, and changes no other feeder. -/
theorem grant_feeder (f : FeederNo) (b : BayNo) (s : State) (g : FeederNo) :
    (grant f b s).feeder g = if f = g then ((s.feeder f).unqueue b).addGrant b else s.feeder g := by
  have h : (grant f b s).feeders = (s.setFeeder f (((s.feeder f).unqueue b).addGrant b)).feeders := commitCore_feeders _ _ _ _
  unfold State.feeder at *
  rw [h]
  exact setFeeder_feeder s f g _

theorem grant_bay (f : FeederNo) (b : BayNo) (s : State) (x : BayNo) :
    (grant f b s).bay x =
      if b = x then
        { (grantWork f b (s.setFeeder f (((s.feeder f).unqueue b).addGrant b))).bay with inFlight := true }
      else s.bay x :=
  commitCore_bay b _ false _ x

theorem commit_inFlight (b : BayNo) (w : Work) (full : Bool) (s : State) : ((commit b w full s).bay b).inFlight = true :=
  (feederReports_moves b w.reports _).inFlight (by simp)

/-! ## The Feeder Arbiter -/

section
variable {lawful : Prop}

theorem grantPass_deeds (f : FeederNo) : ∀ (q : List (BayNo × Time)) (s : State),
    (∀ e ∈ q, e.1 ∈ (s.feeder f).queue.map Prod.fst ∨ (s.bay e.1).inFlight = true) →
      Deeds lawful s (grantPass f q s)
  | [], _, _ => .refl
  | (b, t) :: rest, s, hq => by
    unfold grantPass
    have hrest : ∀ e ∈ rest, e.1 ∈ (s.feeder f).queue.map Prod.fst ∨ (s.bay e.1).inFlight = true :=
      fun e he => hq e (List.mem_cons_of_mem _ he)
    split
    · rename_i hc
      obtain ⟨hroom, hable⟩ := Bool.and_eq_true_iff.1 hc
      have hqueued : b ∈ (s.feeder f).queue.map Prod.fst := by
        refine (hq (b, t) List.mem_cons_self).resolve_right ?_
        simp [(eligible_free hable).1]
      refine .trans (.single (.grants f b s hroom hable hqueued)) (grantPass_deeds f rest _ fun e he => ?_)
      by_cases hb : b = e.1
      · exact .inr (by rw [grant_bay, if_pos hb])
      · rw [grant_feeder, if_pos rfl, grant_bay, if_neg hb]
        refine (hrest e he).imp (fun hin => ?_) id
        obtain ⟨x, hx, hxe⟩ := List.mem_map.1 hin
        refine List.mem_map.2 ⟨x, List.mem_filter.2 ⟨hx, ?_⟩, hxe⟩
        simp only [hxe, bne_iff_ne]
        exact fun h => hb h.symm
    · exact grantPass_deeds f rest s hrest

theorem act_deeds (f : FeederNo) (s : State) : Deeds lawful s (act f s) :=
  grantPass_deeds f _ s fun _ he => .inl (List.mem_map_of_mem he)

theorem foldl_deeds {α : Type} (g : State → α → State) (h : ∀ s a, Deeds lawful s (g s a)) :
    ∀ (l : List α) (s : State), Deeds lawful s (l.foldl g s)
  | [], _ => .refl
  | a :: rest, s => (h s a).trans (foldl_deeds g h rest _)

/-- The reports of an update are acted on once they are applied. -/
theorem acts_deeds (b : BayNo) (w : Work) (full : Bool) (s : State) : Deeds lawful (opened b w full s) (commit b w full s) :=
  foldl_deeds _ (fun u f => act_deeds f u) _ _

theorem commit_deeds {b : BayNo} {w : Work} (full : Bool) {s : State} (free : (s.bay b).inFlight = false)
    (unl : s.locked b = false) (work : Begun s b w) : Deeds lawful s (commit b w full s) :=
  .head (.opens b w full s free unl work) (acts_deeds b w full s)

/-! ## Bay commands at their turn -/

/-- The current command, where it is an UNMAP_TAG, names the radio mapped to bay `b` (R55). -/
def Named (b : BayNo) (s : State) : Prop :=
  ∀ cmd, s.mailbox.current = some cmd → cmd.code = 7 →
    ∃ t ∈ s.link.tagMap, t.radio.toNat = cmd.a.toNat ∧ t.bay = b

theorem beginCommand_deeds {b : BayNo} {w : Work} (full : Bool) {s : State} (free : (s.bay b).inFlight = false)
    (unl : s.locked b = false) (work : Begun (s.setProgress (.updating b)) b w) :
    Deeds lawful s (beginCommand b w full s) :=
  .head (.progresses (.updating b) s) (commit_deeds full free unl work)

theorem linkMap_setProgress (a : RadioAddr) (b : BayNo) (s : State) (p : Progress) :
    (linkMap a b s).setProgress p = linkMap a b (s.setProgress p) := by
  unfold linkMap
  simp only [setProgress_link]
  split <;> rfl

theorem mapTag_deeds (a : RadioAddr) (b : BayNo) (k : UnitKind) {p : Progress} {s : State}
    (free : (s.bay b).inFlight = false) (unl : s.locked b = false) (new : s.link.entryOf a = none)
    (vacant : (s.bay b).occupied = false) :
    Deeds lawful (s.setProgress p) (commit b (mapWork a b k (linkMap a b s)) true ((linkMap a b s).setProgress p)) := by
  have hwork : mapWork a b k (linkMap a b s) = mapWork a b k (linkMap a b (s.setProgress p)) := by
    rw [← linkMap_setProgress]
    rfl
  rw [hwork, linkMap_setProgress]
  exact .head (.maps a b k (s.setProgress p) free unl new vacant) (acts_deeds b _ true _)

theorem turnMapTag_deeds {b : BayNo} (cmd : Command) {s : State} (free : (s.bay b).inFlight = false)
    (unl : s.locked b = false) : Deeds lawful s (turnMapTag b cmd s) := by
  unfold turnMapTag
  simp only []
  split
  · exact .single (.finishes _ s)
  · rename_i hfree
    simp only [Bool.or_eq_true, not_or, Bool.not_eq_true, Option.isSome_eq_false_iff, Option.isNone_iff_eq_none] at hfree
    exact .head (.progresses (.updating b) s) (mapTag_deeds _ b _ free unl hfree.1 hfree.2)

theorem turnUnmapTag_deeds {b : BayNo} {cmd : Command} {s : State} (free : (s.bay b).inFlight = false)
    (unl : s.locked b = false)
    (named : lawful → ∃ t ∈ s.link.tagMap, t.radio.toNat = cmd.a.toNat ∧ t.bay = b) :
    Deeds lawful s (turnUnmapTag b cmd s) := by
  unfold turnUnmapTag
  split
  · exact .single (.finishes _ s)
  · rename_i hocc
    have hocc : (s.bay b).occupied = true := by simpa using hocc
    refine .head (.progresses (.updating b) s)
      (.head (.unmaps (cmd.a.setWidth 10) b (s.setProgress (.updating b)) free unl hocc fun hl => ?_)
        (acts_deeds b _ true _))
    obtain ⟨t, ht, hradio, hbay⟩ := named hl
    refine ⟨t, ht, BitVec.eq_of_toNat_eq ?_, hbay⟩
    rw [BitVec.toNat_setWidth, ← hradio, Nat.mod_eq_of_lt t.radio.isLt]

theorem turnCommand_deeds {b : BayNo} {s : State} (free : (s.bay b).inFlight = false) (unl : s.locked b = false)
    (named : lawful → Named b s) : Deeds lawful s (turnCommand b s) := by
  unfold turnCommand
  split
  · exact .refl
  · rename_i cmd hcmd
    split
    · exact turnMapTag_deeds cmd free unl
    · rename_i hcode
      exact turnUnmapTag_deeds free unl fun hl => named hl cmd hcmd (BitVec.eq_of_toNat_eq hcode)
    · unfold turnSetLoading
      split
      · exact .single (.finishes _ s)
      · rename_i hocc
        have hocc : (s.bay b).occupied = true := by simpa using hocc
        exact beginCommand_deeds false free unl (.loading _ hocc)
    · unfold turnForceDefrost
      split
      · rename_i hc
        obtain ⟨hocc, hstate⟩ := Bool.and_eq_true_iff.1 hc
        exact beginCommand_deeds false free unl (.forced hocc hstate)
      · exact .single (.finishes _ s)
    · unfold turnCancelDefrost
      split
      · rename_i hc
        obtain ⟨hocc, hstate⟩ := Bool.and_eq_true_iff.1 hc
        exact beginCommand_deeds false free unl (.cancelled hocc hstate)
      · exact .single (.finishes _ s)
    · unfold turnAssignFeeder
      split
      · rename_i hc
        obtain ⟨hocc, hstate⟩ := Bool.and_eq_true_iff.1 hc
        exact beginCommand_deeds false free unl (.assigned _ hocc hstate)
      · exact .single (.finishes _ s)
    · exact .refl

/-! ## The turns of a bay's events -/

theorem meetFrame_deeds {b : BayNo} (h : HandedFrame) {s : State} (free : (s.bay b).inFlight = false)
    (unl : s.locked b = false) : Deeds lawful s (meetFrame b h s) := by
  unfold meetFrame
  split
  · rename_i hfits
    exact commit_deeds false free unl (.frame h hfits)
  · exact .refl

theorem startEvent_deeds {b : BayNo} (ev : BayEvent) {s : State} (free : (s.bay b).inFlight = false)
    (unl : s.locked b = false) (named : lawful → ev = .command → Named b s) : Deeds lawful s (startEvent b ev s) := by
  cases ev with
  | expiry t stale =>
    simp only [startEvent]
    split
    · exact .refl
    · exact commit_deeds false free unl (.expiry t)
  | revocation => exact commit_deeds false free unl .revocation
  | handOffFrame =>
    simp only [startEvent]
    split
    · exact .head (.hands none s) (meetFrame_deeds _ free unl)
    · exact .refl
  | deferredFrame h => exact meetFrame_deeds h free unl
  | command => exact turnCommand_deeds free unl fun hl => named hl rfl

/-- An event at its turn begins an update, or leaves all but the hand-off place and the command's result as it is. -/
inductive Turned (b : BayNo) (s : State) : State → Prop
  | begun (t : State) (busy : (t.bay b).inFlight = true) : Turned b s t
  | dropped : Turned b s s
  | discarded : Turned b s s.clearHandOff
  | refused (r : Result) : Turned b s (s.finish r)

theorem Turned.ite {b : BayNo} {s t u : State} {c : Prop} [Decidable c] (ht : Turned b s t) (hu : Turned b s u) :
    Turned b s (if c then t else u) := by
  split
  · exact ht
  · exact hu

theorem meetFrame_turned (b : BayNo) (h : HandedFrame) (s : State) :
    meetFrame b h s = s ∨ ((meetFrame b h s).bay b).inFlight = true := by
  unfold meetFrame
  split
  · exact .inr (commit_inFlight _ _ _ _)
  · exact .inl rfl

theorem turnCommand_turned (b : BayNo) (s : State) : Turned b s (turnCommand b s) := by
  have hbegin : ∀ w full u, Turned b s (beginCommand b w full u) := fun w full u => .begun _ (commit_inFlight _ _ _ _)
  unfold turnCommand
  split
  · exact .dropped
  · split
    · exact .ite (.refused _) (hbegin _ _ _)
    · exact .ite (.refused _) (hbegin _ _ _)
    · exact .ite (.refused _) (hbegin _ _ _)
    · exact .ite (hbegin _ _ _) (.refused _)
    · exact .ite (hbegin _ _ _) (.refused _)
    · exact .ite (hbegin _ _ _) (.refused _)
    · exact .dropped

theorem startEvent_turned (b : BayNo) (ev : BayEvent) (s : State) : Turned b s (startEvent b ev s) := by
  cases ev with
  | expiry t stale =>
    simp only [startEvent]
    split
    · exact .dropped
    · exact .begun _ (commit_inFlight _ _ _ _)
  | revocation => exact .begun _ (commit_inFlight _ _ _ _)
  | handOffFrame =>
    simp only [startEvent]
    split
    · rename_i h _
      rcases meetFrame_turned b h s.clearHandOff with hm | hm
      · rw [hm]
        exact .discarded
      · exact .begun _ hm
    · exact .dropped
  | deferredFrame h =>
    rcases meetFrame_turned b h s with hm | hm
    · have hs : startEvent b (.deferredFrame h) s = s := hm
      rw [hs]
      exact .dropped
    · exact .begun _ hm
  | command => exact turnCommand_turned b s

/-- Where no update has begun, the event at its turn has changed no entry, no mapping and no command. -/
theorem Turned.idle {b : BayNo} {s t : State} (h : Turned b s t) (free : (t.bay b).inFlight = false) :
    t.bays = s.bays ∧ t.link.tagMap = s.link.tagMap ∧ t.mailbox.current = s.mailbox.current := by
  cases h with
  | begun t busy => simp [busy] at free
  | dropped | discarded => exact ⟨rfl, rfl, rfl⟩
  | refused r =>
    unfold State.finish
    split
    · exact ⟨rfl, rfl, rfl⟩
    · exact ⟨rfl, rfl, rfl⟩

theorem setWaiting_deeds (b : BayNo) (l : List BayEvent) (s : State) : Deeds lawful s (s.setWaiting b l) :=
  .single (.lists b l (s.bay b).held (s.bay b).deferred s)

theorem turnList_deeds {b : BayNo} : ∀ (l : List BayEvent) {s : State}, (s.bay b).inFlight = false →
    s.locked b = false → (lawful → .command ∈ l → Named b s) → Deeds lawful s (turnList b l s)
  | [], _, _, _, _ => .refl
  | ev :: rest, s, free, unl, named => by
    have hfree : ((s.setWaiting b rest).bay b).inFlight = false := by simp [State.setWaiting, free]
    have hunl : (s.setWaiting b rest).locked b = false := unl
    have hstart : Deeds lawful s (startEvent b ev (s.setWaiting b rest)) :=
      (setWaiting_deeds b rest s).trans
        (startEvent_deeds ev hfree hunl fun hl he => named hl (by simp [he]))
    have hlock : (startEvent b ev (s.setWaiting b rest)).locked b = false :=
      (Moves.locked (startEvent_moves b ev _ hfree hunl) b).trans hunl
    unfold turnList
    simp only []
    split
    · exact hstart
    · rename_i hidle
      have hidle := eq_false_of_ne_true hidle
      obtain ⟨-, hmap, hcur⟩ := (startEvent_turned b ev (s.setWaiting b rest)).idle hidle
      refine hstart.trans (turnList_deeds rest hidle hlock fun hl hmem => ?_)
      unfold Named
      rw [hmap, hcur]
      exact named hl (List.mem_cons_of_mem _ hmem)

theorem turn_deeds {b : BayNo} {s : State} (named : lawful → .command ∈ (s.bay b).waiting → Named b s) :
    Deeds lawful s (turn b s) := by
  unfold turn
  split
  · exact .refl
  · rename_i h
    simp only [Bool.or_eq_true, not_or, Bool.not_eq_true] at h
    exact turnList_deeds _ h.1 h.2 named

/-! ## Events reaching a bay -/

theorem offerHeld_deeds (b : BayNo) {ev : BayEvent} (hev : ev ≠ .command) (s : State) :
    Deeds lawful s (offerHeld b ev s) := by
  unfold offerHeld
  simp only []
  split
  · exact .single (.lists b (s.bay b).waiting _ (s.bay b).deferred s)
  · rename_i hl
    split
    · exact setWaiting_deeds b _ s
    · rename_i hf
      exact startEvent_deeds ev (by simpa using hf) (by simpa using hl) fun _ he => absurd he hev

theorem offerFrame_deeds (h : HandedFrame) (s : State) : Deeds lawful s (offerFrame h s) := by
  unfold offerFrame
  simp only []
  split
  · have h1 : Deeds lawful s (s.setBay h.bay { s.bay h.bay with deferred := some h }).clearHandOff :=
      .head (.lists h.bay (s.bay h.bay).waiting (s.bay h.bay).held (some h) s) (.single (.hands none _))
    split
    · exact h1.tail (.counts _ _)
    · exact h1
  · rename_i hl
    split
    · exact setWaiting_deeds h.bay _ s
    · rename_i hf
      exact startEvent_deeds _ (by simpa using hf) (by simpa using hl) fun _ he => by cases he

theorem offerCommand_deeds (b : BayNo) {s : State} (named : lawful → Named b s) : Deeds lawful s (offerCommand b s) := by
  unfold offerCommand
  simp only []
  split
  · exact .single (.progresses _ s)
  · rename_i hl
    split
    · exact (setWaiting_deeds b _ s).tail (.progresses _ _)
    · rename_i hf
      exact .head (.progresses _ s) (startEvent_deeds _ (eq_false_of_ne_true hf) (eq_false_of_ne_true hl) fun k _ => named k)

/-! ## The end of an update, and the release of the lock -/

theorem finishUpdating_deeds (b : BayNo) (s : State) : Deeds lawful s (finishUpdating b s) := by
  unfold finishUpdating
  split
  · exact .single (.finishes _ s)
  · exact .refl

theorem finishUpdating_bays (b : BayNo) (s : State) : (finishUpdating b s).bays = s.bays := by
  unfold finishUpdating
  split
  · rw [finish_eq]
  · rfl

theorem finish_current (s : State) (r : Result) : (s.finish r).mailbox.current = s.mailbox.current := by
  unfold State.finish
  split <;> rfl

theorem finishUpdating_named (b : BayNo) (s : State) (h : Named b s) : Named b (finishUpdating b s) := by
  unfold finishUpdating
  split
  · intro cmd hcmd
    rw [finish_current] at hcmd
    rw [finish_eq]
    exact h cmd hcmd
  · exact h

theorem endUpdate_deeds {b : BayNo} {s : State} (named : lawful → .command ∈ (s.bay b).waiting → Named b s) :
    Deeds lawful (s.setBay b { s.bay b with inFlight := false }) (endUpdate b s) := by
  unfold endUpdate
  refine (finishUpdating_deeds b _).trans (.trans (turn_deeds fun hl hmem => ?_) ((act_deeds _ _).tail (.fetches _)))
  refine finishUpdating_named b _ (named hl ?_)
  simpa [State.bay, State.setBay, finishUpdating_bays] using hmem

theorem unlocked_deeds {b : BayNo} {s : State}
    (named : lawful → s.mailbox.progress = .awaitsUnlock b ∨ .command ∈ (s.bay b).held → Named b s) :
    Deeds lawful s (unlocked b s) := by
  unfold unlocked
  simp only []
  refine .trans ?_ ((act_deeds _ _).tail (.wants _))
  refine .trans ?_ (turn_deeds fun hl hmem => ?_)
  · split
    · exact .head (.lists b _ _ _ s) (.single (.progresses _ _))
    · exact .single (.lists b _ _ _ s)
  · have hkeep : ∀ u, u.link = s.link → u.mailbox.current = s.mailbox.current → Named b s → Named b u :=
      fun u h1 h2 h3 cmd hcmd => by
        rw [h1]
        exact h3 cmd (h2 ▸ hcmd)
    split at hmem
    · rename_i hw
      rw [if_pos hw]
      exact hkeep _ rfl rfl (named hl (.inl (by simpa using hw)))
    · rename_i hw
      rw [if_neg hw]
      refine hkeep _ rfl rfl (named hl (.inr ?_))
      cases hd : (s.bay b).deferred <;> simpa [releasedEvents, hw, hd] using hmem

end

end Sys2Proof.Machine

/-! PROOFS. What the change of a bay update can do, said once: which fields of the entry it keeps, how its orders account for
the pending order (R84, R158), and how its reports account for the bay's place at its feeder (R82, R107-R109). -/

namespace Sys2Proof.Machine

/-! ## What a change keeps of the entry -/

/-- A list of events with some expiries marked stale: the same events otherwise. -/
def Marked (l l' : List BayEvent) : Prop :=
  ∃ g : BayEvent → BayEvent, (∀ x, g x = .command ↔ x = .command) ∧ l' = l.map g

theorem Marked.refl (l : List BayEvent) : Marked l l := ⟨id, fun _ => Iff.rfl, (List.map_id l).symm⟩

theorem Marked.trans {l l' l'' : List BayEvent} (h : Marked l l') (h' : Marked l' l'') : Marked l l'' := by
  obtain ⟨g, hg, rfl⟩ := h
  obtain ⟨g', hg', rfl⟩ := h'
  exact ⟨g' ∘ g, fun x => (hg' _).trans (hg x), List.map_map⟩

theorem Marked.nil_iff {l l' : List BayEvent} (h : Marked l l') : l' = [] ↔ l = [] := by
  obtain ⟨g, -, rfl⟩ := h
  exact List.map_eq_nil_iff

theorem Marked.count {l l' : List BayEvent} (h : Marked l l') : l'.count .command = l.count .command := by
  obtain ⟨g, hg, rfl⟩ := h
  induction l with
  | nil => rfl
  | cons x rest ih =>
    have hx : (g x == .command) = (x == .command) := by
      rw [Bool.eq_iff_iff, beq_iff_eq, beq_iff_eq]
      exact hg x
    simp only [List.map_cons, List.count_cons, ih, hx]

theorem Marked.mem {l l' : List BayEvent} (h : Marked l l') : .command ∈ l' ↔ .command ∈ l := by
  rw [← List.count_pos_iff, ← List.count_pos_iff, h.count]

theorem marked_markStale (t : BayTimer) (l : List BayEvent) : Marked l (l.map (BayEvent.markStale t)) :=
  ⟨_, fun x => by cases x <;> simp [BayEvent.markStale], rfl⟩

/-- The fields of the entry that no change touches but those of the occupancy (R76, R77) and of ASSIGN_FEEDER (R122). -/
structure Steady (e e' : BayEntry) : Prop where
  occupied : e'.occupied = e.occupied
  radio : e'.radio = e.radio
  feeder : e'.feeder = e.feeder
  inFlight : e'.inFlight = e.inFlight
  deferred : e'.deferred = e.deferred
  waiting : Marked e.waiting e'.waiting
  held : Marked e.held e'.held
  blank : (e.readingHeld = false → e.reading = .zero) → e'.readingHeld = false → e'.reading = .zero

theorem Steady.refl (e : BayEntry) : Steady e e := ⟨rfl, rfl, rfl, rfl, rfl, .refl _, .refl _, id⟩

theorem Steady.trans {e e' e'' : BayEntry} (h : Steady e e') (h' : Steady e' e'') : Steady e e'' where
  occupied := h'.occupied.trans h.occupied
  radio := h'.radio.trans h.radio
  feeder := h'.feeder.trans h.feeder
  inFlight := h'.inFlight.trans h.inFlight
  deferred := h'.deferred.trans h.deferred
  waiting := h.waiting.trans h'.waiting
  held := h.held.trans h'.held
  blank := fun hb => h'.blank (h.blank hb)

theorem steady_setTimer (e : BayEntry) (t : BayTimer) (x : Timer) : Steady e (e.setTimer t x) := by
  cases t <;> exact ⟨rfl, rfl, rfl, rfl, rfl, marked_markStale _ _, marked_markStale _ _, id⟩

/-! ## What a change tells of the pending order -/

/-- Whether an order is pending once the tells of an update are taken in turn. -/
def told (p : Bool) (os : List OrderTell) : Bool :=
  os.foldl (fun _ t => match t with | .pends => true | .withdrawn => false) p

@[simp] theorem told_append (p : Bool) (os os' : List OrderTell) : told p (os ++ os') = told (told p os) os' :=
  List.foldl_append

/-- A change that keeps what is steady and tells what becomes of the pending order. -/
structure Reworks (w w' : Work) : Prop where
  steady : Steady w.bay w'.bay
  tells : ∃ os, w'.orders = w.orders ++ os
    ∧ w'.bay.defrost.pending.isSome = told w.bay.defrost.pending.isSome os

theorem Reworks.refl (w : Work) : Reworks w w := ⟨.refl _, [], (List.append_nil _).symm, rfl⟩

theorem Reworks.trans {w w' w'' : Work} (h : Reworks w w') (h' : Reworks w' w'') : Reworks w w'' := by
  obtain ⟨hs, os, ho, hp⟩ := h
  obtain ⟨hs', os', ho', hp'⟩ := h'
  exact ⟨hs.trans hs', os ++ os', by rw [ho', ho, List.append_assoc], by rw [hp', hp, told_append]⟩

theorem Reworks.ite {w w' w'' : Work} {c : Prop} [Decidable c] (h : c → Reworks w w') (h' : ¬ c → Reworks w w'') :
    Reworks w (if c then w' else w'') := by
  split
  · rename_i hc; exact h hc
  · rename_i hc; exact h' hc

/-- A change of the entry alone that leaves the pending order. -/
theorem reworks_bay (w : Work) {e : BayEntry} (hs : Steady w.bay e) (hp : e.defrost.pending = w.bay.defrost.pending) :
    Reworks w { w with bay := e } := ⟨hs, [], (List.append_nil _).symm, by simp [hp, told]⟩

theorem reworks_defrost (w : Work) {d : DefrostRecord} (hp : d.pending = w.bay.defrost.pending) :
    Reworks w (w.defrost d) := reworks_bay w ⟨rfl, rfl, rfl, rfl, rfl, .refl _, .refl _, id⟩ hp

theorem reworks_setTimer (w : Work) (t : BayTimer) (x : Timer) : Reworks w (w.setTimer t x) :=
  reworks_bay w (steady_setTimer _ t x) (by cases t <;> rfl)

theorem reworks_report (w : Work) (r : Report) : Reworks w (w.report r) :=
  ⟨.refl _, [], (List.append_nil _).symm, rfl⟩

theorem reworks_raises (w : Work) (k : AlertKind) (c : Condition) : Reworks w (w.raises k c) :=
  ⟨.refl _, [], (List.append_nil _).symm, rfl⟩

theorem reworks_pendOrder (w : Work) (k : OrderKind) (f : Option FeederNo) : Reworks w (w.pendOrder k f) :=
  ⟨⟨rfl, rfl, rfl, rfl, rfl, .refl _, .refl _, id⟩, [.pends], rfl, rfl⟩

theorem reworks_withdrawStart (w : Work) : Reworks w w.withdrawStart :=
  .ite (fun _ => ⟨⟨rfl, rfl, rfl, rfl, rfl, .refl _, .refl _, id⟩, [.withdrawn], rfl, rfl⟩) fun _ => .refl w

theorem reworks_withdrawOrder (w : Work) : Reworks w w.withdrawOrder :=
  .ite (fun _ => ⟨⟨rfl, rfl, rfl, rfl, rfl, .refl _, .refl _, id⟩, [.withdrawn], rfl, rfl⟩) fun _ => .refl w

theorem reworks_release (w : Work) : Reworks w w.release := by
  unfold Work.release
  simp only []
  split
  · exact ((reworks_report w _).trans (reworks_defrost _ (by rfl))).trans (reworks_withdrawStart _)
  · exact (reworks_defrost w (by rfl)).trans (reworks_withdrawStart _)

theorem reworks_leave (new : DefrostState) (w : Work) : Reworks w (w.leave new) := by
  unfold Work.leave
  split
  · simp only []
    split
    · exact (reworks_report w _).trans (reworks_defrost _ (by rfl))
    · exact reworks_defrost w (by rfl)
  · exact .ite (fun _ => .refl w) fun _ => reworks_release w
  · exact .ite (fun _ => .refl w) fun _ => reworks_release w
  · exact .ite (fun _ => .refl w) fun _ => reworks_release w
  · exact reworks_report w _
  · exact .refl w
  · exact .refl w

theorem reworks_enter (p : Params) (new : DefrostState) (w : Work) : Reworks w (w.enter p new) := by
  have hstate : Reworks w (w.defrost { w.bay.defrost with state := new }) := reworks_defrost w (by rfl)
  unfold Work.enter
  cases new with
  | idle => exact (hstate.trans (reworks_defrost _ (by rfl))).trans (reworks_setTimer _ _ _)
  | due | running | draining => exact hstate.trans (reworks_setTimer _ _ _)
  | ordered | stopping => exact (hstate.trans (reworks_setTimer _ _ _)).trans (reworks_pendOrder _ _ _)
  | self => exact (hstate.trans (reworks_setTimer _ _ _)).trans (reworks_report _ _)

theorem reworks_moveTo (p : Params) (new : DefrostState) (w : Work) : Reworks w (w.moveTo p new) :=
  (reworks_leave _ w).trans (reworks_enter p _ _)

theorem reworks_routePower (c : Ctx) (w : Work) : Reworks w (w.routePower c) := by
  unfold Work.routePower
  exact .ite (fun _ => (reworks_defrost w (by rfl)).trans (reworks_report _ _)) fun _ =>
    .ite (fun _ => (reworks_defrost w (by rfl)).trans (reworks_enter _ _ _)) fun _ => reworks_defrost w (by rfl)

theorem reworks_enterDue (c : Ctx) (w : Work) : Reworks w (w.enterDue c) :=
  (reworks_moveTo _ _ w).trans (reworks_routePower c _)

theorem reworks_demand (c : Ctx) (w : Work) : Reworks w (w.demand c) :=
  (reworks_defrost w (by rfl)).trans (reworks_enterDue c _)

theorem reworks_reroute (c : Ctx) (w : Work) : Reworks w (w.reroute c) :=
  .ite (fun _ => .ite (fun _ => .refl w) fun _ =>
      ((reworks_defrost w (by rfl)).trans (reworks_report _ _)).trans (reworks_routePower c _))
    fun _ => reworks_routePower c w

theorem reworks_unordered (c : Ctx) (w : Work) : Reworks w (w.unordered c) :=
  (reworks_raises w _ _).trans (reworks_moveTo _ _ _)

theorem reworks_countIce (w : Work) : Reworks w w.countIce := reworks_defrost w (by rfl)

theorem reworks_defrostEnds (c : Ctx) (w : Work) : Reworks w (w.defrostEnds c) :=
  (reworks_defrost w (by rfl)).trans (reworks_moveTo _ _ _)

theorem reworks_stageLateStart (c : Ctx) (w : Work) : Reworks w (w.stageLateStart c) :=
  .ite (fun _ => .ite
      (fun _ => ((reworks_defrost w (by rfl)).trans (reworks_report _ _)).trans (reworks_enter _ _ _))
      fun _ => reworks_unordered c w)
    fun _ => .ite (fun _ => (reworks_defrost w (by rfl)).trans (reworks_moveTo _ _ _)) fun _ => reworks_unordered c w

theorem reworks_stageOrdered (c : Ctx) (w : Work) : Reworks w (w.stageOrdered c) :=
  .ite (fun _ => reworks_moveTo _ _ w) fun _ =>
    .ite (fun _ => .ite (fun _ => reworks_moveTo _ _ w) fun _ =>
        (reworks_raises w _ _).trans (reworks_moveTo _ _ _))
      fun _ => .refl w

theorem reworks_defrostStage (c : Ctx) (w : Work) : Reworks w (w.defrostStage c) := by
  refine (reworks_countIce w).trans ?_
  unfold Work.defrostStage
  generalize w.countIce = u
  simp only []
  split
  · exact .ite (fun _ => reworks_unordered c u) fun _ => .ite (fun _ => reworks_demand c u) fun _ => .refl u
  · exact .ite (fun _ => reworks_unordered c u) fun _ => .refl u
  · exact .ite (fun _ => .ite (fun _ => reworks_stageLateStart c u) fun _ => reworks_unordered c u) fun _ =>
      reworks_reroute c u
  · exact reworks_stageOrdered c u
  · exact .ite (fun _ => reworks_defrostEnds c u) fun _ => .ite (fun _ => reworks_moveTo _ _ u) fun _ => .refl u
  · exact .ite (fun _ => reworks_defrostEnds c u) fun _ => .refl u
  · exact .ite (fun _ => reworks_defrostEnds c u) fun _ => .refl u

theorem reworks_startWindowExpires (c : Ctx) (w : Work) : Reworks w (w.startWindowExpires c) :=
  .ite (fun _ => (reworks_defrost w (by rfl)).trans (reworks_enterDue c _)) fun _ =>
    (((reworks_defrost w (by rfl)).trans (reworks_defrost _ (by rfl))).trans (reworks_raises _ _ _)).trans (reworks_moveTo _ _ _)

theorem reworks_maxDefrostExpires (c : Ctx) (w : Work) : Reworks w (w.maxDefrostExpires c) :=
  (reworks_moveTo _ _ w).trans (reworks_raises _ _ _)

theorem reworks_stopWindowExpires (c : Ctx) (w : Work) : Reworks w (w.stopWindowExpires c) := by
  unfold Work.stopWindowExpires
  exact (reworks_raises w _ _).trans (reworks_moveTo _ _ _)

theorem reworks_granted (p : Params) (f : FeederNo) (w : Work) : Reworks w (w.granted p f) :=
  (reworks_defrost w (by rfl)).trans (reworks_enter _ _ _)

theorem reworks_revoke (f : FeederNo) (w : Work) : Reworks w (w.revoke f) := by
  have h0 : Reworks w (w.defrost { w.bay.defrost with grantFeeder := none }) := reworks_defrost w (by rfl)
  unfold Work.revoke
  simp only []
  split
  · refine .ite (fun _ => ?_) fun _ => ?_
    · exact ((h0.trans (reworks_withdrawStart _)).trans (reworks_defrost _ (by rfl))).trans (reworks_setTimer _ _ _)
    · exact ((h0.trans (reworks_pendOrder _ _ _)).trans (reworks_defrost _ (by rfl))).trans (reworks_setTimer _ _ _)
  · exact ((h0.trans (reworks_withdrawStart _)).trans (reworks_defrost _ (by rfl))).trans (reworks_setTimer _ _ _)
  · exact (h0.trans (reworks_defrost _ (by rfl))).trans (reworks_setTimer _ _ _)
  all_goals exact .refl w

theorem reworks_cancel (c : Ctx) (w : Work) : Reworks w (w.cancel c) := by
  have h1 : Reworks w (w.defrost { w.bay.defrost with lastEnd := some c.now }) := reworks_defrost w (by rfl)
  unfold Work.cancel
  simp only []
  split
  · exact h1.trans (reworks_moveTo _ _ _)
  · exact .ite (fun _ => h1.trans (reworks_moveTo _ _ _)) fun _ => h1.trans (reworks_moveTo _ _ _)
  · exact h1.trans (reworks_moveTo _ _ _)
  · exact h1.trans (reworks_pendOrder _ _ _)
  all_goals exact .refl w

/-! ### The other stages and expiries -/

theorem reworks_fuelStage (w : Work) : Reworks w w.fuelStage := by
  have hbay : ∀ x, Reworks w { w with bay := { w.bay with fuel := x } } :=
    fun x => reworks_bay w ⟨rfl, rfl, rfl, rfl, rfl, .refl _, .refl _, id⟩ rfl
  unfold Work.fuelStage
  split
  · unfold Work.fuelStageDiesel
    simp only []
    split
    · exact (hbay _).trans (reworks_raises _ _ _)
    · exact hbay _
  · exact .refl w

theorem reworks_door (w : Work) (x : DoorRecord) : Reworks w { w with bay := { w.bay with door := x } } :=
  reworks_bay w ⟨rfl, rfl, rfl, rfl, rfl, .refl _, .refl _, id⟩ rfl

theorem reworks_setDoor (w : Work) (x : DoorState) : Reworks w (w.setDoor x) := reworks_door w _

theorem reworks_doorOpens (w : Work) : Reworks w w.doorOpens := (reworks_door w _).trans (reworks_setTimer _ _ _)

theorem reworks_doorStage (found : DefrostState) (w : Work) : Reworks w (w.doorStage found) := by
  refine .ite (fun _ => ?_) fun _ => ?_
  · have hopen : Reworks w (if w.bay.door.state = .closed then w.doorOpens else w) :=
      .ite (fun _ => reworks_doorOpens w) fun _ => .refl w
    exact .ite (fun _ => hopen.trans (reworks_raises _ _ _)) fun _ => hopen
  · unfold Work.doorSeenShut
    split
    · exact .refl w
    · exact (reworks_setDoor w _).trans (reworks_setTimer _ _ _)
    · exact (reworks_setDoor w _).trans (reworks_raises _ _ _)

theorem reworks_toOpenLong (now : Time) (w : Work) : Reworks w (w.toOpenLong now) :=
  ((reworks_setDoor w _).trans (reworks_setTimer _ _ _)).trans (reworks_raises _ _ _)

theorem reworks_judgeLoading (c : Ctx) (w : Work) : Reworks w (w.judgeLoading c) := by
  unfold Work.judgeLoading
  simp only []
  split
  · exact .refl w
  · exact .ite (fun _ => reworks_toOpenLong _ w) fun _ => reworks_setTimer w _ _
  · exact .ite (fun _ => (reworks_setDoor w _).trans (reworks_setTimer _ _ _)) fun _ => .refl w

theorem reworks_setLoading (c : Ctx) (on : Bool) (w : Work) : Reworks w (w.setLoading c on) :=
  .ite (fun _ => .refl w) fun _ =>
    (reworks_bay w (e := { w.bay with loading := on }) ⟨rfl, rfl, rfl, rfl, rfl, .refl _, .refl _, id⟩ rfl).trans
      (reworks_judgeLoading c _)

theorem reworks_resume (h : HandedFrame) (w : Work) : Reworks w (w.resume h) :=
  .ite (fun _ =>
      ((reworks_bay w (e := { w.bay with silent := false }) ⟨rfl, rfl, rfl, rfl, rfl, .refl _, .refl _, id⟩ rfl).trans
        (reworks_raises _ _ _)).trans (reworks_report _ _))
    fun _ => .refl w

theorem reworks_storeStage (c : Ctx) (h : HandedFrame) (w : Work) : Reworks w (w.storeStage c h) := by
  have hstore : Steady w.bay { w.bay with reading := h.reading, readingHeld := true } :=
    ⟨rfl, rfl, rfl, rfl, rfl, .refl _, .refl _, fun _ hf => by cases hf⟩
  exact ((reworks_bay w hstore rfl).trans (reworks_resume h _)).trans (reworks_setTimer _ _ _)

theorem reworks_evaluate (c : Ctx) (h : HandedFrame) (w : Work) : Reworks w (w.evaluate c h) :=
  (((reworks_storeStage c h w).trans (reworks_fuelStage _)).trans (reworks_defrostStage c _)).trans
    (reworks_doorStage _ _)

theorem reworks_silenceExpires (c : Ctx) (w : Work) : Reworks w (w.silenceExpires c) :=
  ((reworks_bay w (e := { w.bay with silent := true, silentSince := c.now })
    ⟨rfl, rfl, rfl, rfl, rfl, .refl _, .refl _, id⟩ rfl).trans (reworks_setTimer _ _ _)).trans (reworks_raises _ _ _)

theorem reworks_expires (c : Ctx) (t : BayTimer) (w : Work) : Reworks w (w.expires c t) := by
  cases t with
  | silence => exact reworks_silenceExpires c w
  | door => exact reworks_toOpenLong _ w
  | defrost =>
    simp only [Work.expires]
    split
    · exact reworks_startWindowExpires c w
    · exact reworks_maxDefrostExpires c w
    · exact reworks_stopWindowExpires c w
    · exact reworks_moveTo _ _ w
    all_goals exact .refl w

theorem reworks_giveUp (w : Work) : Reworks w w.giveUp := by
  unfold Work.giveUp
  refine .trans ?_ (reworks_withdrawOrder _)
  split
  · exact reworks_release w
  · exact reworks_release w
  · exact reworks_release w
  · exact .ite (fun _ => reworks_report w _) fun _ => .refl w
  · exact reworks_report w _
  · exact .refl w
  · exact .refl w

end Sys2Proof.Machine

/-! PROOFS. What a request's answer and a command can do, said once; and the invariants that follow from what moves leave
alone: record memory's canonical form and the ring's shadow. -/

namespace Sys2Proof.Machine

/-! ## Routes outside PASS -/

/-- The routes that only an active window gives (R3, R13). -/
def Route.windowed : Route → Bool
  | .inbox _ _ | .bayRead _ | .settings _ _ _ => true
  | .refuse | .plain | .argument _ _ | .command _ | .consumer _ => false

theorem routeSetupWrite_not_windowed (k : Nat) (ws : List (Mask × Word)) : (routeSetupWrite k ws).windowed = false := by
  simp only [routeSetupWrite]
  split
  · rfl
  · split <;> (try split) <;> rfl

/-- In PASS no request is routed to a window (R3, step 4). -/
theorem mode_of_windowed {d : Decoder} {r : Request} (h : (route d r).windowed = true) : d.mode ≠ .pass := by
  intro hpass
  revert h
  simp only [route, hpass, if_true]
  split_ifs
  · exact Bool.false_ne_true
  · exact Bool.false_ne_true
  · split
    · exact Bool.false_ne_true
    · rw [routeSetupWrite_not_windowed]
      exact Bool.false_ne_true
  · exact Bool.false_ne_true

/-- The Inbox Queue is reached in RUN alone (R13, R15). -/
theorem mode_of_inbox {d : Decoder} {r : Request} {n : RadioAddr} {f : Frame} (h : route d r = .inbox n f) :
    d.mode = .run := by
  have hsetup : ∀ k ws, routeSetupWrite k ws ≠ .inbox n f := fun k ws he => by
    have := routeSetupWrite_not_windowed k ws
    rw [he] at this
    cases this
  by_contra hm
  revert h
  simp only [route, routeWindow, if_neg hm]
  split_ifs
  all_goals (try split) <;> simp_all

/-! ## Answers -/

/-- What the answer to a request leaves. -/
inductive Answer (r : Request) (s : State) : State → Prop
  | completes (c : Completion) : Answer r s (s.complete r.initiator c)
  | queues (e : InboxEntry) (running : s.decoder.mode = .run) (room : s.inbox.length < 16) :
    Answer r s (State.complete { s with inbox := s.inbox ++ [e] } r.initiator (.done []))
  | delays (windowed : s.decoder.mode ≠ .pass) : Answer r s ((s.addEntry (readKey r)).complete r.initiator .retry)
  | delivers (data : List Word) : Answer r s ((s.removeEntry (readKey r)).complete r.initiator (.done data))
  | passes (p : Path) (windowed : (∃ b v, p = .bayRead b v) ∨ (∃ b, p = .settings b) → s.decoder.mode ≠ .pass) :
    Answer r s (s.pass r p)
  | locks (b : BayNo) (windowed : s.decoder.mode ≠ .pass) (unlocked : s.access.lock = none)
      (free : (s.bay b).inFlight = false) : Answer r s ((establish r.initiator b s).pass r (.bayRead b false))
  | sets (b : BayNo) (x : Settings) (r' : Request) (windowed : s.decoder.mode ≠ .pass) :
    Answer r s ((s.setSettings b x).pass r' (.settings b))
  | consumes (v : BitVec 8) :
    Answer r s ((State.wantRewrite { s with ring := s.ring.consume v }).pass r .consumerIndex)
  | acknowledges (open_ : s.mailbox.state ≠ .busy) : Answer r s ((acknowledge s).pass r .commandWord)
  | commands (code : Word) (open_ : s.mailbox.state ≠ .busy) : Answer r s ((takeAndRun code s).pass r .commandWord)

theorem answerBayRead_cases (r : Request) (b : BayNo) {s : State} (hm : s.decoder.mode ≠ .pass) :
    Answer r s (answerBayRead r b s) := by
  unfold answerBayRead
  split
  · exact .completes _
  · split
    · exact .delays hm
    · split
      · exact .delivers _
      · exact .completes _
      · exact .passes _ fun _ => hm

theorem answerLockedBayRead_cases (r : Request) (b : BayNo) {s : State} (hm : s.decoder.mode ≠ .pass) :
    Answer r s (answerLockedBayRead r b s) := by
  unfold answerLockedBayRead
  split
  · rename_i hl
    split
    · exact .completes _
    · rename_i hf
      exact .locks b hm hl (eq_false_of_ne_true hf)
  · split
    · split
      · exact .passes _ fun _ => hm
      · exact .completes _
    · exact .completes _

theorem answerSettings_cases (r : Request) (b : BayNo) (k : Nat) (ws : List (Mask × Word)) {s : State}
    (hm : s.decoder.mode ≠ .pass) : Answer r s (answerSettings r b k ws s) := by
  simp only [answerSettings]
  split_ifs
  · exact .completes _
  · exact .completes _
  · exact .completes _
  · exact .completes _
  · exact .completes _
  · exact .sets b _ _ hm

/-- Whatever the route, the answer is one of these. -/
theorem answer_cases (r : Request) (s : State) : Answer r s (answer r s (route s.decoder r)) := by
  have hwindow : (route s.decoder r).windowed = true → s.decoder.mode ≠ .pass := mode_of_windowed
  have hinbox : ∀ n f, route s.decoder r = .inbox n f → s.decoder.mode = .run := fun _ _ => mode_of_inbox
  generalize route s.decoder r = p at hwindow hinbox
  cases p with
  | refuse => exact .completes _
  | plain => exact .passes _ (by simp)
  | argument x v =>
    simp only [answer, answerArgument]
    split
    · exact .completes _
    · exact .passes _ (by simp)
  | command v =>
    simp only [answer, answerCommand]
    split
    · exact .completes _
    · rename_i hb
      split
      · exact .acknowledges hb
      · exact .commands v hb
  | consumer v =>
    simp only [answer, answerConsumer]
    split
    · exact .consumes _
    · exact .completes _
  | inbox n f =>
    simp only [answer, answerInbox]
    split
    · rename_i hroom
      exact .queues _ (hinbox n f rfl) hroom
    · exact .completes _
  | bayRead b =>
    simp only [answer]
    split
    · exact answerLockedBayRead_cases r b (hwindow rfl)
    · exact answerBayRead_cases r b (hwindow rfl)
  | settings b k ws => exact answerSettings_cases r b k ws (hwindow rfl)

/-! ## More runs of moves -/

theorem complete_moves (i : Initiator) (c : Completion) (s : State) :
    Moves { s with front := ⟨none, some ⟨i, c⟩⟩ } (s.complete i c) := count_moves _ _

theorem completeHalt_moves (s : State) : Moves s (completeHalt s) := (wantRewrite_moves s).trans (finish_moves _ _)

theorem raiseFeeder_moves (f : FeederNo) (c : Condition) (s : State) : Moves s (raiseFeeder f c s) := by
  unfold raiseFeeder
  split
  · exact .refl
  · exact .single (.sources _ s)

theorem becomeActive_moves (f : FeederNo) (s : State) : Moves s (becomeActive f s) := by
  unfold becomeActive
  exact (((Moves.one (.feeder f _ s)).trans (raiseFeeder_moves f _ _)).trans (wantRewrite_moves _)).trans (act_moves f _)

theorem startRestore_moves (f : FeederNo) (s : State) : Moves s (startRestore f s) :=
  (Moves.one (.feeder f _ s)).trans (wantRewrite_moves _)

theorem revokeOne_moves (f : FeederNo) (s : State) (b : BayNo) : Moves s (revokeOne f s b) :=
  (entry_moves b _ s (reworks_revoke f (Work.start (s.bay b))).steady.inFlight).tail (.sources _ _)

theorem tripFeeder_moves (f : FeederNo) (s : State) : Moves s (tripFeeder f s) := by
  simp only [tripFeeder]
  refine .trans ?_ (foldl_moves _ (fun u b => offerHeld_moves b .revocation u) _ _)
  exact (((foldl_moves _ (revokeOne_moves f) _ s).tail (.feeder f _ _)).trans (raiseFeeder_moves f _ _)).trans
    (wantRewrite_moves _)

theorem timerExpires_moves (b : BayNo) (t : BayTimer) (s : State) : Moves s (timerExpires b t s) :=
  (entry_moves b _ s (by cases t <;> rfl)).trans (offerHeld_moves b _ _)

theorem raiseLink_moves (t : TagEntry) (raised : Option Code) (arrival : Time) (s : State) :
    Moves s (raiseLink t raised arrival s) := by
  unfold raiseLink
  split
  · exact .single (.sources _ s)
  · exact .refl

theorem handOn_moves (h : HandedFrame) (s : State) : Moves s (handOn h s) :=
  (Moves.one (.link _ s)).trans (offerFrame_moves h _)

theorem takeUnmapped_moves (s : State) (e : InboxEntry) (good : Bool) (seq : Seq) :
    Moves s (takeUnmapped s e good seq) := by
  simp only [takeUnmapped]
  split
  · exact count_moves _ s
  · split
    · exact (count_moves _ s).tail (.link _ _)
    · split
      · exact (count_moves _ s).trans (linkSources_moves _ _ _)
      · exact count_moves _ s

theorem takeOfMapped_moves (t : TagEntry) (e : InboxEntry) (good : Bool) (seq : Seq) (s : State) :
    Moves s (takeOfMapped t e good seq s) := by
  have hraise : ∀ k c u, Moves s u → Moves s (raiseLink k c e.arrival u) := fun k c u h => h.trans (raiseLink_moves k c _ u)
  simp only [takeOfMapped]
  split
  · exact (hraise _ _ _ ((count_moves _ s).tail (.link _ _))).trans (handOn_moves _ _)
  · exact hraise _ _ _ ((count_moves _ s).tail (.link _ _))

theorem takeJudged_moves (inj : Option InjectKind) (e : InboxEntry) (s : State) : Moves s (takeJudged inj e s) := by
  simp only [takeJudged]
  split
  · exact (count_moves _ s).trans (takeOfMapped_moves _ _ _ _ _)
  · exact (count_moves _ s).trans (takeUnmapped_moves _ _ _ _)

theorem takeEntry_moves (e : InboxEntry) (s : State) : Moves s (takeEntry e s) := by
  unfold takeEntry
  split
  · exact .single (.link _ s)
  · exact (Moves.one (.link _ s)).trans (takeJudged_moves _ e _)
  · exact takeJudged_moves _ e s

theorem takeCommand_moves (cmd : Command) (s : State) : Moves s (s.takeCommand cmd) := by
  simp only [State.takeCommand, State.leaveDone]
  split
  · exact (wantRewrite_moves s).tail (.mailbox _ _)
  · exact .single (.mailbox _ s)

theorem acknowledge_moves (s : State) : Moves s (acknowledge s) := by
  unfold acknowledge
  split
  · exact (Moves.one (.mailbox _ s)).trans (wantRewrite_moves _)
  · exact .refl

/-! ## Deeds are runs of moves -/

theorem opened_moves (b : BayNo) (w : Work) (full : Bool) (s : State) (free : (s.bay b).inFlight = false)
    (unl : s.locked b = false) : Moves s (opened b w full s) :=
  .head (.begins b w full s free unl) (foldl_moves (applyReport b) (fun u r => Moves.one (.feeder r.feeder _ u)) _ _)

theorem Deed.moves {lawful : Prop} {s t : State} (h : Deed lawful s t) : Moves s t := by
  cases h with
  | opens b w full _ free unl => exact opened_moves b w full s free unl
  | maps a b k _ free unl =>
    exact (linkMap_moves a b s).trans
      (opened_moves b _ true _ (by rw [linkMap_bay]; exact free) (by rw [linkMap_locked]; exact unl))
  | unmaps a b _ free unl => exact (linkUnmap_moves a b s).trans (opened_moves b _ true _ free unl)
  | grants f b _ _ able => exact grant_moves f b s able
  | finishes r => exact finish_moves r s
  | progresses p => exact setProgress_moves p s
  | lists b => exact entry_moves b _ s rfl
  | hands => exact .single (.link _ s)
  | counts c => exact count_moves c s
  | wants => exact wantRewrite_moves s
  | fetches => exact fetchJudge_moves s

theorem Deeds.moves {lawful : Prop} {s t : State} (h : Deeds lawful s t) : Moves s t :=
  h.keeps (P := Moves s) (fun _ _ hd hm => hm.trans hd.moves) .refl

/-! ## Commands -/

/-- What a command sets before it does what the Check Engine and the Feeder Arbiter do: the decoder (R6, R14), a parameter
(R192), the yard time (R193), the injection (R42), a feeder's capacity (R121), the counters (R194). -/
structure Configured (s u : State) : Prop where
  decoder : DecoderChange s.decoder u.decoder
  pass : u.decoder.mode = .pass → s.decoder.mode = .pass
  base : u.clock.base = s.clock.base
  link : u.link = { s.link with injection := u.link.injection }
  feeder : ∀ f, u.feeder f = { s.feeder f with capacity := (u.feeder f).capacity }
  capacity : ∀ f, (u.feeder f).capacity ≤ max 8 (s.feeder f).capacity
  rest :
    u = { s with
      decoder := u.decoder, params := u.params, clock := u.clock, link := u.link, feeders := u.feeders
      counters := u.counters, status := { s.status with counterChanged := u.status.counterChanged } }

theorem Configured.refl (s : State) : Configured s s :=
  ⟨.same _, id, rfl, rfl, fun _ => rfl, fun _ => le_max_right _ _, rfl⟩

/-- A change of the decoder, the parameters, the yard time, the injection and the counters alone. -/
theorem configured_of {s : State} {d : Decoder} (hd : DecoderChange s.decoder d)
    (hp : d.mode = .pass → s.decoder.mode = .pass) (p : Params) (t : Time) (x : Option (RadioAddr × InjectKind))
    (c : Counters) (m : Bool) :
    Configured s
      { s with
        decoder := d, params := p, clock := { s.clock with time := t }, link := { s.link with injection := x }
        counters := c, status := { s.status with counterChanged := m } } :=
  ⟨hd, hp, rfl, rfl, fun _ => rfl, fun _ => le_max_right _ _, rfl⟩

theorem configured_setFeeder {s : State} (f : FeederNo) {n : Nat} (hn : n ≤ 8) :
    Configured s (s.setFeeder f { s.feeder f with capacity := n }) where
  decoder := .same _
  pass := id
  base := rfl
  link := rfl
  feeder := fun g => by
    rw [setFeeder_feeder]
    split
    · rename_i h; rw [h]
    · rfl
  capacity := fun g => by
    rw [setFeeder_feeder]
    split
    · exact hn.trans (le_max_left _ _)
    · exact le_max_right _ _
  rest := rfl

section
variable {lawful : Prop}

theorem bayCommand_deeds (a : Word) (ok : Bool) {s : State} (named : ∀ b, Named b s) :
    Deeds lawful s (bayCommand a ok s) := by
  unfold bayCommand
  split
  · exact .single (.finishes _ s)
  · split
    · exact .single (.finishes _ s)
    · split
      · exact offerCommand_deeds _ fun _ => named _
      · exact .single (.finishes _ s)

/-- The mode set by RUN and HALT (R14). -/
theorem setMode_deeds {s t : State} {m : Mode} (hd : DecoderChange s.decoder { s.decoder with mode := m })
    (hm : m ≠ .pass) (h : Deeds lawful (s.setMode m) t) : ∃ u, Configured s u ∧ Deeds lawful u t :=
  ⟨{ s with decoder := { s.decoder with mode := m } },
    configured_of hd (fun h => absurd h hm) s.params s.clock.time s.link.injection s.counters s.status.counterChanged,
    .head (.wants _) h⟩

theorem commandSetWindow_deeds (cmd : Command) (s : State) :
    ∃ u, Configured s u ∧ Deeds lawful u (commandSetWindow cmd s) := by
  unfold commandSetWindow
  split
  · exact ⟨s, .refl s, .single (.finishes _ s)⟩
  · rename_i hm
    split
    · exact ⟨s, .refl s, .single (.finishes _ s)⟩
    · rename_i n _
      split
      · exact ⟨s, .refl s, .single (.finishes _ s)⟩
      · rename_i x hx
        exact ⟨{ s with decoder := { s.decoder with windows := s.decoder.windows.put x n } },
          configured_of (.window _ n _ _ x (not_not.1 hm) hx) id s.params s.clock.time s.link.injection s.counters
            s.status.counterChanged, .single (.finishes _ _)⟩

theorem commandRun_deeds (s : State) : ∃ u, Configured s u ∧ Deeds lawful u (commandRun s) := by
  unfold commandRun
  split
  · split
    · rename_i hon
      exact setMode_deeds (.run _ fun _ => hon) (by decide) (.single (.finishes _ _))
    · exact ⟨s, .refl s, .single (.finishes _ s)⟩
  · exact ⟨s, .refl s, .single (.finishes _ s)⟩
  · rename_i hm
    exact setMode_deeds (.run _ fun hp => absurd (hm.symm.trans hp) (by decide)) (by decide) (.single (.finishes _ _))

theorem commandHalt_deeds (s : State) : ∃ u, Configured s u ∧ Deeds lawful u (commandHalt s) := by
  unfold commandHalt
  split
  · exact ⟨s, .refl s, .single (.finishes _ s)⟩
  · rename_i hm
    split
    · exact setMode_deeds (.halt _ hm) (by decide) (.single (.progresses _ _))
    · exact setMode_deeds (.halt _ hm) (by decide) (.single (.finishes _ _))
  · exact ⟨s, .refl s, .single (.finishes _ s)⟩

theorem commandSetFeeder_deeds (cmd : Command) (s : State) :
    ∃ u, Configured s u ∧ Deeds lawful u (commandSetFeeder cmd s) := by
  unfold commandSetFeeder
  split
  · exact ⟨s, .refl s, .single (.finishes _ s)⟩
  · rename_i f _
    split
    · exact ⟨s, .refl s, .single (.finishes _ s)⟩
    · rename_i hn
      refine ⟨_, configured_setFeeder f (Nat.not_lt.1 hn), ?_⟩
      simp only []
      split
      · exact .head (.finishes _ _) (act_deeds _ _)
      · exact .single (.finishes _ _)

theorem commandInject_deeds (cmd : Command) (s : State) :
    ∃ u, Configured s u ∧ Deeds lawful u (commandInject cmd s) := by
  unfold commandInject
  split
  · exact ⟨s, .refl s, .single (.finishes _ s)⟩
  · split
    · exact ⟨s, .refl s, .single (.finishes _ s)⟩
    · split
      · exact ⟨s, .refl s, .single (.finishes _ s)⟩
      · rename_i k _
        exact ⟨{ s with link := { s.link with injection := k.map fun x => (cmd.a.setWidth 10, x) } },
          configured_of (.same _) id s.params s.clock.time _ s.counters s.status.counterChanged,
          .single (.finishes _ _)⟩

theorem commandUnmapTag_deeds {cmd : Command} {s : State} (hcur : s.mailbox.current = some cmd) :
    Deeds lawful s (commandUnmapTag cmd s) := by
  unfold commandUnmapTag
  split
  · exact .single (.finishes _ s)
  · split
    · exact .single (.finishes _ s)
    · rename_i t ht
      refine offerCommand_deeds t.bay fun _ x hx _ => ⟨t, List.mem_of_find?_eq_some ht, ?_, rfl⟩
      rw [hcur, Option.some.injEq] at hx
      rw [← hx]
      simpa using List.find?_some ht

/-- A command sets what is its own to set, and does what the Check Engine and the Feeder Arbiter do. -/
theorem runCommand_deeds {cmd : Command} {s : State} (hcur : s.mailbox.current = some cmd) :
    ∃ u, Configured s u ∧ Deeds lawful u (runCommand cmd s) := by
  have named : cmd.code.toNat ≠ 7 → ∀ b, Named b s := fun hcode b x hx h7 => by
    rw [hcur, Option.some.injEq] at hx
    exact absurd (by rw [hx, h7]; rfl) hcode
  unfold runCommand
  split
  · exact commandSetWindow_deeds cmd s
  · unfold commandSetTiming
    split
    · rename_i p _
      exact ⟨{ s with params := p },
        configured_of (.same _) id p s.clock.time s.link.injection s.counters s.status.counterChanged,
        .single (.finishes _ _)⟩
    · exact ⟨s, .refl s, .single (.finishes _ s)⟩
  · exact commandRun_deeds s
  · exact commandHalt_deeds s
  · exact ⟨{ s with clock := { s.clock with time := cmd.a } },
      configured_of (.same _) id s.params cmd.a s.link.injection s.counters s.status.counterChanged,
      .single (.finishes _ _)⟩
  · rename_i hcode
    exact ⟨s, .refl s, bayCommand_deeds _ _ (named (by simp [hcode]))⟩
  · exact ⟨s, .refl s, commandUnmapTag_deeds hcur⟩
  · rename_i hcode
    exact ⟨s, .refl s, bayCommand_deeds _ _ (named (by simp [hcode]))⟩
  · rename_i hcode
    exact ⟨s, .refl s, bayCommand_deeds _ _ (named (by simp [hcode]))⟩
  · rename_i hcode
    exact ⟨s, .refl s, bayCommand_deeds _ _ (named (by simp [hcode]))⟩
  · exact commandSetFeeder_deeds cmd s
  · rename_i hcode
    exact ⟨s, .refl s, bayCommand_deeds _ _ (named (by simp [hcode]))⟩
  · exact commandInject_deeds cmd s
  · exact ⟨{ s with counters := .zero, status := { s.status with counterChanged := true } },
      configured_of (.same _) id s.params s.clock.time s.link.injection .zero true, .single (.finishes _ _)⟩
  · exact ⟨s, .refl s, .single (.finishes _ s)⟩

theorem takeCommand_current (cmd : Command) (s : State) : (s.takeCommand cmd).mailbox.current = some cmd := rfl

theorem takeAndRun_deeds (code : Word) (s : State) :
    ∃ u, Configured (s.takeCommand (s.mailbox.commandOf code)) u ∧ Deeds lawful u (takeAndRun code s) :=
  runCommand_deeds (takeCommand_current _ s)

end

/-- A value that neither moves nor a command's own settings change is unchanged by a command. -/
theorem takeAndRun_same {α : Type} (f : State → α) (hm : ∀ s t, Move s t → f t = f s)
    (hc : ∀ s u, Configured s u → f u = f s) (code : Word) (s : State) : f (takeAndRun code s) = f s := by
  obtain ⟨u, hu, hrun⟩ := takeAndRun_deeds (lawful := False) code s
  calc f (takeAndRun code s) = f u := hrun.moves.same f hm
    _ = f (s.takeCommand _) := hc _ u hu
    _ = f s := (takeCommand_moves _ s).same f hm

/-! ## Record memory (O54) -/

theorem Answer.mem {r : Request} {s t : State} (h : Answer r s t) : t.mem = s.mem := by
  cases h with
  | delays => simp only [complete_mem, State.addEntry]; split <;> rfl
  | acknowledges => exact (acknowledge_moves s).mem
  | commands code => exact takeAndRun_same State.mem (fun _ _ => Move.mem) (fun _ _ hc => by rw [hc.rest]) code s
  | _ => rfl

theorem finishRequest_mem (r : Request) (data : List Word) (s : State) (p : Path) :
    (finishRequest r data s p).mem = s.mem := by
  cases p with
  | plain | commandWord | consumerIndex | settings b => rfl
  | argument x => cases x <;> rfl
  | bayRead b overtaken =>
    simp only [finishRequest, rejudgeRead, State.addEntry]
    split_ifs <;> rfl

theorem claim_mem (s : State) (x : Source) : (claim s x).mem = s.mem := by cases x <;> rfl

/-- Memory changes by writing words, and in no other way (R12). -/
def WordsWritten (m m' : Memory) : Prop := m' = m ∨ ∃ a ws, m' = m.writeWords a ws

theorem burstWritten_written (s : State) (q : Requester) : WordsWritten s.mem (s.burstWritten q) := by
  unfold State.burstWritten
  split
  · exact .inr ⟨_, _, rfl⟩
  · exact .inl rfl

theorem cutMemory_written (s : State) (bits : BitVec 8) : WordsWritten s.mem (s.cutMemory bits) := by
  unfold State.cutMemory
  split
  · split
    · exact .inr ⟨_, _, rfl⟩
    · exact .inl rfl
  · exact .inl rfl

theorem afterBlock_presentPending_mem (n : Nat) (s : State) : (s.afterBlock n).presentPending.mem = s.mem := by
  unfold State.presentPending State.afterBlock
  split_ifs <;> rfl

theorem finishFetch_mem (x : Fetch) (s : State) : (finishFetch x s).mem = s.burstWritten .fetch := by
  simp only [finishFetch]
  rw [(fetchJudge_moves _).mem]
  split <;> rfl

theorem yardTick_mem (s : State) : (yardTick s).mem = s.mem := by
  unfold yardTick counterRewrite tickTimers
  split_ifs <;> rfl

theorem Change.mem {s t : State} (h : Change s t) : WordsWritten s.mem t.mem := by
  have same : ∀ {m}, m = s.mem → WordsWritten s.mem m := fun h => .inl h
  have ended : ∀ {q m}, m = s.burstWritten q → WordsWritten s.mem m := fun h => h ▸ burstWritten_written s _
  cases h with
  | queue | line | resetReleases | counts | clearsAnswer | grantsPort | reclaims | passes => exact same rfl
  | resetFalls bits => exact cutMemory_written s bits
  | claims x => exact same (claim_mem s x)
  | presents => exact same (by rw [statusSettle_eq])
  | haltCompletes => exact same (completeHalt_moves s).mem
  | unlocks l => exact same (unlocked_moves l.bay _).mem
  | answers r => exact same (answer_cases r s).mem
  | requestEnds o => exact ended (finishRequest_mem _ _ _ _)
  | firstBurstEnds | noticeEnds | resultEnds => exact ended rfl
  | updateEnds x => exact ended (endUpdate_moves x.bay _).mem
  | blockEnds n => exact ended (afterBlock_presentPending_mem n _)
  | fetchEnds x => exact ended (finishFetch_mem x s)
  | takes e rest => exact same (takeEntry_moves e _).mem
  | expires b x => exact same (timerExpires_moves b x s).mem
  | activates f => exact same (becomeActive_moves f s).mem
  | restores f => exact same (startRestore_moves f s).mem
  | trips f => exact same (tripFeeder_moves f s).mem
  | ticks => exact same (yardTick_mem s)

/-- Memory changes by writing words alone, which keeps its canonical form. -/
theorem Change.canonical {s t : State} (h : Change s t) (hs : MemoryCanonical s) : MemoryCanonical t := by
  unfold MemoryCanonical at *
  rcases h.mem with hm | ⟨a, ws, hm⟩
  · rw [hm]
    exact hs
  · rw [hm]
    exact Memory.writeWords_wf ws s.mem a hs

/-- Settles O54: each change of a step keeps the canonical form (`Change.canonical`). -/
theorem memoryStaysCanonical : Obligations.MemoryStaysCanonical := by
  unfold Obligations.MemoryStaysCanonical
  exact fun _ _ hs h => step_keeps (fun _ _ hc => hc.canonical) hs h

end Sys2Proof.Machine

/-! PROOFS. R159 and R66: the ring's shadow holds each source once, and the record writer's queue follows the updates in
flight. -/

namespace Sys2Proof.Machine

/-! ## The source a claim takes (R159-R161) -/

theorem eligibleFrom_spec {r : Ring} {mk : Nat → Source} {x : Source} :
    ∀ {i : Nat} {l : List Bool}, eligibleFrom r mk i l = some x → r.blocked x = false ∧ ∃ n, x = mk n
  | _, [], h => by cases h
  | i, p :: rest, h => by
    unfold eligibleFrom at h
    split at h
    · rename_i hc
      cases h
      simp only [Bool.and_eq_true, Bool.not_eq_true'] at hc
      exact ⟨hc.2, i, rfl⟩
    · exact eligibleFrom_spec h

/-- The source to claim is a bay's order, or one that no slot of the ring holds (R159, R160). -/
theorem chooseSource_spec {q : Sources} {r : Ring} {x : Source} (h : chooseSource q r = some x) :
    (∃ b, x = .order b) ∨ r.blocked x = false := by
  unfold chooseSource at h
  split at h
  · cases h
    exact .inl ⟨_, rfl⟩
  · simp only [chooseFeeder, chooseTag, chooseAlert, Option.or_eq_some_iff] at h
    rcases h with ((h | ⟨-, h⟩) | ⟨-, h | ⟨-, h⟩⟩) <;> exact .inr (eligibleFrom_spec h).1

theorem noticeReady_spec {s : State} {x : Source} (h : noticeReady s = some x) :
    s.decoder.mode ≠ .pass ∧ chooseSource s.sources s.ring = some x := by
  unfold noticeReady at h
  split at h
  · rename_i hc
    simp only [Bool.and_eq_true, bne_iff_ne] at hc
    exact ⟨hc.1.1, h⟩
  · cases h

theorem Ring.blocked_iff (r : Ring) (x : Source) : r.blocked x = true ↔ ∃ i : Fin 256, r.shadow[i] = some x := by
  simp only [Ring.blocked, List.any_eq_true, beq_iff_eq, Vector.mem_toList_iff]
  constructor
  · rintro ⟨y, hy, rfl⟩
    obtain ⟨i, hi, hget⟩ := Vector.mem_iff_getElem.1 hy
    exact ⟨⟨i, hi⟩, hget⟩
  · rintro ⟨i, hi⟩
    exact ⟨some x, Vector.mem_iff_getElem.2 ⟨i.val, i.isLt, hi⟩, rfl⟩

/-! ## The shadow (O58) -/

/-- The changes of the shadow: slots lose their source (R163), or a slot takes one that no slot holds (R152, R159). -/
def ShadowStep (v v' : Vector (Option Source) 256) : Prop :=
  (∀ i : Fin 256, v'[i] = v[i] ∨ v'[i] = none)
    ∨ ∃ (k : Fin 256) (x : Source), v' = v.set k (some x) ∧ ((∃ b, x = .order b) ∨ ∀ i : Fin 256, v[i] ≠ some x)

theorem ShadowStep.of_eq {v v' : Vector (Option Source) 256} (h : v' = v) : ShadowStep v v' :=
  .inl fun i => .inl (by rw [h])

theorem claim_shadow (s : State) (x : Source) : (claim s x).ring.shadow = s.ring.shadow.set s.ring.slot (some x) := by
  cases x <;> rfl

theorem Move.shadowStep {s t : State} (h : Move s t) : t.ring.shadow = s.ring.shadow := by rw [h.ring]

theorem Answer.shadow {r : Request} {s t : State} (h : Answer r s t) : ShadowStep s.ring.shadow t.ring.shadow := by
  cases h with
  | delays => exact .of_eq (by simp only [complete_ring, State.addEntry]; split <;> rfl)
  | acknowledges => exact .of_eq (congrArg Ring.shadow (acknowledge_moves s).ring)
  | commands code =>
    exact .of_eq (congrArg Ring.shadow
      (takeAndRun_same State.ring (fun _ _ => Move.ring) (fun _ _ hc => by rw [hc.rest]) code s))
  | consumes v =>
    refine .inl fun i => ?_
    simp only [pass_ring, wantRewrite_ring, Ring.consume, Fin.getElem_fin, Vector.getElem_ofFn]
    split
    · exact .inr rfl
    · exact .inl rfl
  | _ => exact .of_eq rfl

theorem finishRequest_ring (r : Request) (data : List Word) (s : State) (p : Path) :
    (finishRequest r data s p).ring = s.ring := by
  cases p with
  | plain | commandWord | consumerIndex | settings b => rfl
  | argument x => cases x <;> rfl
  | bayRead b overtaken =>
    simp only [finishRequest, rejudgeRead, State.addEntry]
    split_ifs <;> rfl

theorem Change.shadow {s t : State} (h : Change s t) : ShadowStep s.ring.shadow t.ring.shadow := by
  have same : ∀ {r : Ring}, r = s.ring → ShadowStep s.ring.shadow r.shadow := fun h => .of_eq (by rw [h])
  have reset : ShadowStep s.ring.shadow Ring.reset.shadow := .inl fun i => .inr (by simp [Ring.reset])
  cases h with
  | queue | line | counts | clearsAnswer | grantsPort | reclaims | passes | firstBurstEnds => exact same rfl
  | noticeEnds | resultEnds => exact .of_eq rfl
  | resetFalls | resetReleases => exact reset
  | claims x _ ready =>
    rw [claim_shadow]
    refine .inr ⟨_, x, rfl, (chooseSource_spec (noticeReady_spec ready).2).imp_right fun hb i hi => ?_⟩
    exact absurd ((s.ring.blocked_iff x).2 ⟨i, hi⟩) (by simp [hb])
  | presents => exact same (statusSettle_ring s)
  | haltCompletes => exact same (completeHalt_moves s).ring
  | unlocks l => exact same (unlocked_moves l.bay _).ring
  | answers r => exact (answer_cases r s).shadow
  | requestEnds o => exact same (finishRequest_ring _ _ _ _)
  | updateEnds x => exact same (endUpdate_moves x.bay _).ring
  | blockEnds n =>
    refine same ?_
    unfold State.presentPending State.afterBlock
    split_ifs <;> rfl
  | fetchEnds x =>
    refine same ?_
    simp only [finishFetch]
    rw [(fetchJudge_moves _).ring]
    split <;> rfl
  | takes e rest => exact same (takeEntry_moves e _).ring
  | expires b x => exact same (timerExpires_moves b x s).ring
  | activates f => exact same (becomeActive_moves f s).ring
  | restores f => exact same (startRestore_moves f s).ring
  | trips f => exact same (tripFeeder_moves f s).ring
  | ticks =>
    refine same ?_
    unfold yardTick counterRewrite tickTimers
    split_ifs <;> rfl

/-- R159 is kept by each change of the shadow: a source taken was in no slot, unless it is a bay's order. -/
theorem ShadowStep.unique {v v' : Vector (Option Source) 256} (h : ShadowStep v v')
    (hu : ∀ (i j : Fin 256) (x : Source), v[i] = some x → v[j] = some x → (∀ b, x ≠ .order b) → i = j) :
    ∀ (i j : Fin 256) (x : Source), v'[i] = some x → v'[j] = some x → (∀ b, x ≠ .order b) → i = j := by
  intro i j x hi hj hx
  rcases h with h | ⟨k, y, rfl, hy⟩
  · have old : ∀ n : Fin 256, v'[n] = some x → v[n] = some x := fun n hn =>
      (h n).elim (fun he => he ▸ hn) fun he => by rw [he] at hn; cases hn
    exact hu i j x (old i hi) (old j hj) hx
  · have old : ∀ n : Fin 256, (v.set k (some y))[n] = some x → (n = k ∧ y = x) ∨ v[n] = some x := fun n hn => by
      simp only [Fin.getElem_fin, Vector.getElem_set] at hn
      split at hn
      · rename_i hkn
        exact .inl ⟨Fin.ext hkn.symm, Option.some.inj hn⟩
      · exact .inr hn
    have fresh : y = x → ∀ n : Fin 256, v[n] ≠ some x := fun he n => by
      rcases hy with ⟨b, hb⟩ | hy
      · exact absurd (he ▸ hb) (hx b)
      · exact he ▸ hy n
    rcases old i hi, old j hj with ⟨⟨hik, hyx⟩ | hold, ⟨hjk, hyx'⟩ | hold'⟩
    · exact hik.trans hjk.symm
    · exact absurd hold' (fresh hyx j)
    · exact absurd hold (fresh hyx' i)
    · exact hu i j x hold hold' hx

theorem step_shadowUnique {s t : State} (hs : ShadowUnique s) (h : step s = .next t) : ShadowUnique t :=
  step_keeps (P := ShadowUnique) (fun _ _ hc hs => hc.shadow.unique hs) hs h

/-! ## The record writer's queue (O55) -/

/-- What `BurstsFollowUpdates` asks of one bay: no burst while no update is in flight, and the update's last burst, behind at
most its first, while one is. -/
def QueueFits (inFlight : Bool) (l : List RecordBurst) : Prop :=
  (inFlight = false → l = [])
    ∧ (inFlight = true → ∃ y, y.ends = true ∧ (l = [y] ∨ ∃ x, x.ends = false ∧ l = [x, y]))

/-- The first burst of an update leaves its last one queued. -/
theorem QueueFits.first {f : Bool} {x : RecordBurst} {l : List RecordBurst} (h : QueueFits f (x :: l))
    (hx : x.ends = false) : QueueFits f l := by
  cases f with
  | false => cases h.1 rfl
  | true =>
    obtain ⟨y, hy, h | ⟨x', -, h⟩⟩ := h.2 rfl
    · cases h
      simp [hx] at hy
    · cases h
      exact ⟨nofun, fun _ => ⟨y, hy, .inl rfl⟩⟩

/-- The last burst of an update leaves none queued. -/
theorem QueueFits.last {f : Bool} {x : RecordBurst} {l : List RecordBurst} (h : QueueFits f (x :: l))
    (hx : x.ends = true) : QueueFits false l := by
  have hl : l = [] := by
    cases f with
    | false => cases h.1 rfl
    | true =>
      obtain ⟨y, hy, h | ⟨x', hx', h⟩⟩ := h.2 rfl
      · cases h
        rfl
      · cases h
        simp [hx] at hx'
  exact ⟨fun _ => hl, fun h => by cases h⟩

theorem burstsFollowUpdates_iff (s : State) :
    BurstsFollowUpdates s ↔ ∀ b, QueueFits (s.bay b).inFlight (burstsOf s b) := Iff.rfl

/-- The law reads the queue and which updates are in flight. -/
theorem BurstsFollowUpdates.of_same {s t : State} (hs : BurstsFollowUpdates s) (hq : t.bursts = s.bursts)
    (hf : ∀ b, (t.bay b).inFlight = (s.bay b).inFlight) : BurstsFollowUpdates t := by
  rw [burstsFollowUpdates_iff] at *
  intro b
  rw [hf b, burstsOf, hq]
  exact hs b

theorem commitCore_bursts (b : BayNo) (w : Work) (full : Bool) (s : State) :
    ∃ x y, x.bay = b ∧ y.bay = b ∧ x.ends = false ∧ y.ends = true ∧ (commitCore b w full s).bursts = s.bursts ++ [x, y] :=
  ⟨_, _, rfl, rfl, rfl, rfl, rfl⟩

theorem Move.burstsFollow {s t : State} (h : Move s t) (hs : BurstsFollowUpdates s) : BurstsFollowUpdates t := by
  cases h with
  | begins b w full _ free _ =>
    rw [burstsFollowUpdates_iff] at *
    intro c
    obtain ⟨x, y, hx, hy, hxe, hye, hq⟩ := commitCore_bursts b w full s
    rw [commitCore_bay, burstsOf, hq, List.filter_append]
    split
    · rename_i hbc
      subst hbc
      have hnone : burstsOf s b = [] := (hs b).1 free
      rw [burstsOf] at hnone
      simp only [hnone, List.nil_append, List.filter_cons, hx, hy, beq_self_eq_true, if_true, List.filter_nil]
      exact ⟨nofun, fun _ => ⟨y, hye, .inr ⟨x, hxe, rfl⟩⟩⟩
    · rename_i hbc
      simp only [List.filter_cons, hx, hy, beq_iff_eq, hbc, if_false, List.filter_nil, List.append_nil]
      exact hs c
  | entry b e _ same =>
    refine hs.of_same rfl fun c => ?_
    rw [setBay_bay]
    split
    · rename_i hbc
      rw [same, hbc]
    · rfl
  | _ => exact hs

theorem Moves.burstsFollow {s t : State} (h : Moves s t) (hs : BurstsFollowUpdates s) : BurstsFollowUpdates t :=
  h.keeps (fun _ _ hm => hm.burstsFollow) hs

theorem claim_bursts (s : State) (x : Source) : (claim s x).bursts = s.bursts := by cases x <;> rfl

/-- A claim leaves every entry but for the pending order of the bay claimed. -/
theorem claim_bay (s : State) (x : Source) (b : BayNo) : (claim s x).bay b = (clearOrder s x).bay b := rfl

theorem claim_bay_inFlight (s : State) (x : Source) (b : BayNo) :
    ((claim s x).bay b).inFlight = (s.bay b).inFlight := by
  rw [claim_bay]
  rcases clearOrder_bay s x b with h | h <;> rw [h]

theorem blank_bay (p : List Instr) (pins : Pins) (m : Memory) (n : Nat) (b : BayNo) :
    (State.blank p pins m n).bay b = BayEntry.reset b := by
  simp [State.bay, State.blank]

theorem blank_burstsFollow (p : List Instr) (pins : Pins) (m : Memory) (n : Nat) :
    BurstsFollowUpdates (State.blank p pins m n) := by
  intro b
  rw [blank_bay]
  exact ⟨fun _ => rfl, fun h => by cases h⟩

theorem Answer.burstsFollow {r : Request} {s t : State} (h : Answer r s t) (hs : BurstsFollowUpdates s) :
    BurstsFollowUpdates t := by
  cases h with
  | delays =>
    refine hs.of_same ?_ fun b => ?_ <;> unfold State.addEntry <;> split <;> rfl
  | sets b x r' =>
    have hset : Moves s (s.setSettings b x) := entry_moves b _ s rfl
    exact (hset.burstsFollow hs).of_same rfl fun _ => rfl
  | acknowledges => exact ((acknowledge_moves s).burstsFollow hs).of_same rfl fun _ => rfl
  | commands code =>
    obtain ⟨u, hu, hrun⟩ := takeAndRun_deeds (lawful := False) code s
    have htake := (takeCommand_moves (s.mailbox.commandOf code) s).burstsFollow hs
    have hconf : BurstsFollowUpdates u := by
      rw [hu.rest]
      exact htake
    exact (hrun.moves.burstsFollow hconf).of_same rfl fun _ => rfl
  | _ => exact hs

theorem finishRequest_burstsFollow (r : Request) (data : List Word) {s : State} (p : Path)
    (hs : BurstsFollowUpdates s) : BurstsFollowUpdates (finishRequest r data s p) := by
  refine hs.of_same ?_ fun b => ?_
  all_goals
    cases p with
    | plain | commandWord | consumerIndex | settings b => rfl
    | argument x => cases x <;> rfl
    | bayRead b overtaken =>
      simp only [finishRequest, rejudgeRead, State.addEntry]
      split_ifs <;> rfl

/-- A burst that leaves the head of the queue leaves its own bay's list, and no other. -/
theorem burstsOf_cons {s : State} {x : RecordBurst} {rest : List RecordBurst} (h : s.bursts = x :: rest) (b : BayNo) :
    burstsOf s b = if x.bay = b then x :: rest.filter (fun y => y.bay == b) else rest.filter fun y => y.bay == b := by
  simp only [burstsOf, h, List.filter_cons, beq_iff_eq]

theorem firstBurstEnds_burstsFollow {s : State} {x : RecordBurst} {rest : List RecordBurst} (h : s.bursts = x :: rest)
    (hx : x.ends = false) (hs : BurstsFollowUpdates s) : BurstsFollowUpdates (s.endBurst .record).popBurst := by
  rw [burstsFollowUpdates_iff] at *
  intro b
  have hb := hs b
  have hpop : burstsOf (s.endBurst .record).popBurst b = rest.filter fun y => y.bay == b := by
    simp [burstsOf, State.popBurst, State.endBurst, h]
  rw [burstsOf_cons h] at hb
  rw [hpop]
  split at hb
  · exact hb.first hx
  · exact hb

/-- The update whose last burst has been written is in flight no more, with no burst of it queued. -/
theorem lastBurstEnds_burstsFollow {s : State} {x : RecordBurst} {rest : List RecordBurst} (h : s.bursts = x :: rest)
    (hx : x.ends = true) (hs : BurstsFollowUpdates s) :
    BurstsFollowUpdates
      ((s.endBurst .record).popBurst.setBay x.bay { (s.endBurst .record).popBurst.bay x.bay with inFlight := false }) := by
  rw [burstsFollowUpdates_iff] at *
  intro b
  have hb := hs b
  have hpop : ∀ e, burstsOf ((s.endBurst .record).popBurst.setBay x.bay e) b = rest.filter fun y => y.bay == b := by
    simp [burstsOf, State.popBurst, State.endBurst, h]
  rw [burstsOf_cons h] at hb
  rw [hpop, setBay_bay]
  split at hb
  · rename_i hxb
    rw [if_pos hxb]
    exact hb.last hx
  · rename_i hxb
    rw [if_neg hxb]
    exact hb

theorem yardTick_burstsFollow {s : State} (hs : BurstsFollowUpdates s) : BurstsFollowUpdates (yardTick s) := by
  refine hs.of_same ?_ fun b => ?_
  · unfold yardTick counterRewrite tickTimers
    split_ifs <;> rfl
  · unfold yardTick counterRewrite tickTimers
    split_ifs <;> simp [State.bay, State.wantRewrite, tickClock, passPeriods, BayEntry.tick]

theorem Change.burstsFollow {s t : State} (h : Change s t) (hs : BurstsFollowUpdates s) : BurstsFollowUpdates t := by
  cases h with
  | queue | line | counts | clearsAnswer | grantsPort | reclaims | passes | noticeEnds | resultEnds => exact hs
  | resetFalls => exact blank_burstsFollow _ _ _ _
  | resetReleases memsize =>
    exact blank_burstsFollow s.pending { s.pins with resetN := true, memsize := memsize, attnN := true } s.mem s.freeUsed
  | claims x => exact hs.of_same (claim_bursts s x) (claim_bay_inFlight s x)
  | presents => rw [statusSettle_eq]; exact hs
  | haltCompletes => exact (completeHalt_moves s).burstsFollow hs
  | unlocks l => exact (unlocked_moves l.bay _).burstsFollow hs
  | answers r => exact (answer_cases r s).burstsFollow hs
  | requestEnds o => exact finishRequest_burstsFollow _ _ _ hs
  | firstBurstEnds x rest _ queued first => exact firstBurstEnds_burstsFollow queued first hs
  | updateEnds x rest _ queued last =>
    exact (endUpdate_moves x.bay _).burstsFollow (lastBurstEnds_burstsFollow queued last hs)
  | blockEnds n =>
    refine hs.of_same ?_ fun b => ?_ <;> unfold State.presentPending State.afterBlock <;> split_ifs <;> rfl
  | fetchEnds x =>
    refine (fetchJudge_moves _).burstsFollow ?_
    split <;> exact hs
  | takes e rest => exact (takeEntry_moves e _).burstsFollow hs
  | expires b x => exact (timerExpires_moves b x s).burstsFollow hs
  | activates f => exact (becomeActive_moves f s).burstsFollow hs
  | restores f => exact (startRestore_moves f s).burstsFollow hs
  | trips f => exact (tripFeeder_moves f s).burstsFollow hs
  | ticks => exact yardTick_burstsFollow hs

theorem step_burstsFollow {s t : State} (hs : BurstsFollowUpdates s) (h : step s = .next t) : BurstsFollowUpdates t :=
  step_keeps (fun _ _ hc => hc.burstsFollow) hs h

end Sys2Proof.Machine

/-! PROOFS. R15, R22, R172, R193: the tables keep their bounds, and in PASS nothing is queued, locked, delayed or fetched. -/

namespace Sys2Proof.Machine

/-! ## What a take leaves before a frame is handed on (R40-R52) -/

/-- What a take changes itself: counts, sources other than orders, and in the Link Tracker entries of the Tag Map, each of
which keeps its radio and its bay. -/
structure Taken (s u : State) : Prop where
  tagMap : ∃ g : TagEntry → TagEntry, u.link.tagMap = s.link.tagMap.map g ∧ (∀ t, (g t).radio = t.radio)
    ∧ ((s.link.tagMap.map TagEntry.radio).Nodup → ∀ t ∈ s.link.tagMap, (g t).bay = t.bay)
  orders : u.sources.orders = s.sources.orders
  rest :
    u = { s with
      link := u.link, sources := u.sources, counters := u.counters
      status := { s.status with counterChanged := u.status.counterChanged } }

theorem Taken.of_tagMap {s u : State} (ht : u.link.tagMap = s.link.tagMap) (ho : u.sources.orders = s.sources.orders)
    (hr : u = { s with
      link := u.link, sources := u.sources, counters := u.counters
      status := { s.status with counterChanged := u.status.counterChanged } }) : Taken s u :=
  ⟨⟨id, by rw [ht, List.map_id], fun _ => rfl, fun _ _ _ => rfl⟩, ho, hr⟩

/-- A take judges its entry and keeps the radio and the bay it maps (R43-R46). -/
theorem takeMapped_entry (p : Params) (t : TagEntry) (c : Counters) (good : Bool) (q : Seq) :
    (takeMapped p t c good q).entry.radio = t.radio ∧ (takeMapped p t c good q).entry.bay = t.bay := by
  unfold takeMapped takeInHunt takeInProving takeGoodTracked takeBadTracked
  constructor <;> split <;> (try simp only []) <;> split_ifs <;> rfl

/-- In a Tag Map that holds each radio once, the entry of a radio is the only one that is replaced. -/
theorem setEntry_bay {l : LinkTracker} {t t' : TagEntry} (ht : t ∈ l.tagMap) (hr : t'.radio = t.radio)
    (hb : t'.bay = t.bay) (hn : (l.tagMap.map TagEntry.radio).Nodup) {x : TagEntry} (hx : x ∈ l.tagMap) :
    (if x.radio == t'.radio then t' else x).bay = x.bay := by
  split
  · rename_i he
    rw [beq_iff_eq, hr] at he
    rw [List.inj_on_of_nodup_map hn hx ht he, hb]
  · rfl

theorem taken_setEntry {s u : State} {t t' : TagEntry} (ht : t ∈ s.link.tagMap) (hr : t'.radio = t.radio)
    (hb : t'.bay = t.bay) (hm : u.link.tagMap = (s.link.setEntry t').tagMap)
    (ho : u.sources.orders = s.sources.orders)
    (hu : u = { s with
      link := u.link, sources := u.sources, counters := u.counters
      status := { s.status with counterChanged := u.status.counterChanged } }) : Taken s u :=
  ⟨⟨_, hm, fun x => by
      split
      · rename_i he
        exact (beq_iff_eq.1 he).symm
      · rfl, fun hn _ hx => setEntry_bay ht hr hb hn hx⟩, ho, hu⟩

/-- A take either ends with the Link Tracker's own changes or hands its frame on. -/
def HandsOn (s t : State) : Prop := ∃ u, Taken s u ∧ (t = u ∨ ∃ h, t = handOn h u)

theorem takeOfMapped_handsOn {t : TagEntry} (e : InboxEntry) (good : Bool) (q : Seq) {s : State}
    (ht : t ∈ s.link.tagMap) : HandsOn s (takeOfMapped t e good q s) := by
  obtain ⟨hr, hb⟩ := takeMapped_entry s.params t s.counters good q
  simp only [takeOfMapped]
  generalize takeMapped s.params t s.counters good q = k at hr hb
  refine ⟨raiseLink k.entry k.raised e.arrival
    { s.count k.counters with link := (s.count k.counters).link.setEntry k.entry }, ?_, ?_⟩
  · unfold raiseLink
    split <;> exact taken_setEntry ht hr hb rfl rfl rfl
  · split
    · exact .inr ⟨_, rfl⟩
    · exact .inl rfl

theorem takeUnmapped_taken (s : State) (e : InboxEntry) (good : Bool) (q : Seq) : Taken s (takeUnmapped s e good q) := by
  simp only [takeUnmapped]
  split
  · exact .of_tagMap rfl rfl rfl
  · split
    · exact .of_tagMap rfl rfl rfl
    · split <;> exact .of_tagMap rfl rfl rfl

theorem Taken.trans {s u v : State} (h : Taken s u) (hm : u.link.tagMap = s.link.tagMap) (h' : Taken u v) : Taken s v := by
  obtain ⟨⟨g, hg, hr, hb⟩, ho, hrest⟩ := h'
  rw [hm] at hg hb
  refine ⟨⟨g, hg, hr, hb⟩, ho.trans h.orders, ?_⟩
  rw [hrest, h.rest]

theorem HandsOn.after {s u t : State} (h : Taken s u) (hm : u.link.tagMap = s.link.tagMap) (h' : HandsOn u t) :
    HandsOn s t := by
  obtain ⟨v, hv, ht⟩ := h'
  exact ⟨v, h.trans hm hv, ht⟩

theorem takeJudged_handsOn (inj : Option InjectKind) (e : InboxEntry) (s : State) : HandsOn s (takeJudged inj e s) := by
  have hcount : ∀ c, Taken s (s.count c) := fun c => .of_tagMap rfl rfl rfl
  simp only [takeJudged]
  split
  · rename_i t ht
    exact .after (hcount _) rfl (takeOfMapped_handsOn e _ _ (List.mem_of_find?_eq_some ht))
  · exact .after (hcount _) rfl ⟨_, takeUnmapped_taken _ e _ _, .inl rfl⟩

theorem takeEntry_handsOn (e : InboxEntry) (s : State) : HandsOn s (takeEntry e s) := by
  have hused : Taken s { s with link := { s.link with injection := none } } := .of_tagMap rfl rfl rfl
  unfold takeEntry
  split
  · exact ⟨_, hused, .inl rfl⟩
  · exact .after hused rfl (takeJudged_handsOn _ e _)
  · exact takeJudged_handsOn _ e s

theorem handOn_deeds {lawful : Prop} (h : HandedFrame) (s : State) : Deeds lawful s (handOn h s) :=
  .head (.hands (some h) s) (offerFrame_deeds h _)

/-! ## The microsecond tables are moved by requests alone (R22, R172, R193) -/

/-- The bounds read the Inbox Queue, the keys of the Delayed Read Table and the second base. -/
theorem tablesBounded_iff (s : State) :
    TablesBounded s ↔ s.inbox.length ≤ 16 ∧ (s.access.table.map DelayedEntry.key).length ≤ 4
      ∧ (s.access.table.map DelayedEntry.key).Nodup ∧ s.clock.base < 1000000 := by
  rw [List.length_map]
  exact Iff.rfl

theorem TablesBounded.of_same {s t : State} (hs : TablesBounded s) (hi : t.inbox = s.inbox)
    (hk : t.access.table.map DelayedEntry.key = s.access.table.map DelayedEntry.key)
    (hb : t.clock.base = s.clock.base) : TablesBounded t := by
  rw [tablesBounded_iff] at *
  rw [hi, hk, hb]
  exact hs

theorem Moves.tablesBounded {s t : State} (h : Moves s t) (hs : TablesBounded s) : TablesBounded t :=
  hs.of_same h.inbox h.keys (by rw [h.clock])

theorem removeEntry_bounded {s : State} (k : ReadKey) (hs : TablesBounded s) : TablesBounded (s.removeEntry k) := by
  obtain ⟨hi, hl, hn, hb⟩ := hs
  exact ⟨hi, (List.length_filter_le _ _).trans hl, hn.sublist (List.filter_sublist.map _), hb⟩

theorem dropEntries_bounded {s : State} (b : BayNo) (hs : TablesBounded s) : TablesBounded (s.dropEntries b) := by
  obtain ⟨hi, hl, hn, hb⟩ := hs
  exact ⟨hi, (List.length_filter_le _ _).trans hl, hn.sublist (List.filter_sublist.map _), hb⟩

/-- A new delayed entry has a key that no other has, and a place below the bound (R170, R172). -/
theorem addEntry_bounded {s : State} (k : ReadKey) (hs : TablesBounded s) : TablesBounded (s.addEntry k) := by
  obtain ⟨hi, hl, hn, hb⟩ := hs
  unfold State.addEntry
  split
  · rename_i hc
    simp only [Bool.and_eq_true, decide_eq_true_eq, State.entryFor, Option.isNone_iff_eq_none, List.find?_eq_none,
      beq_iff_eq] at hc
    obtain ⟨hnew, hroom⟩ := hc
    refine ⟨hi, ?_, ?_, hb⟩
    · simp only [List.length_append, List.length_singleton]
      omega
    · simp only [List.map_append, List.map_cons, List.map_nil]
      refine hn.append (List.nodup_singleton k) fun x hx hxk => ?_
      obtain ⟨e, he, rfl⟩ := List.mem_map.1 hx
      exact hnew e he (List.mem_singleton.1 hxk)
  · exact ⟨hi, hl, hn, hb⟩

theorem takeAndRun_bounded {s : State} (code : Word) (hs : TablesBounded s) : TablesBounded (takeAndRun code s) := by
  obtain ⟨u, hu, hrun⟩ := takeAndRun_deeds (lawful := False) code s
  have htake := (takeCommand_moves (s.mailbox.commandOf code) s).tablesBounded hs
  refine hrun.moves.tablesBounded (htake.of_same ?_ ?_ hu.base) <;> rw [hu.rest]

theorem Answer.bounded {r : Request} {s t : State} (h : Answer r s t) (hs : TablesBounded s) : TablesBounded t := by
  cases h with
  | queues e _ room =>
    obtain ⟨-, hl, hn, hb⟩ := hs
    refine ⟨?_, hl, hn, hb⟩
    simp only [complete_inbox, List.length_append, List.length_singleton]
    omega
  | delays => exact addEntry_bounded _ hs
  | delivers => exact removeEntry_bounded _ hs
  | acknowledges => exact (acknowledge_moves s).tablesBounded hs
  | commands code => exact takeAndRun_bounded code hs
  | _ => exact hs

theorem finishRequest_bounded (r : Request) (data : List Word) {s : State} (p : Path) (hs : TablesBounded s) :
    TablesBounded (finishRequest r data s p) := by
  cases p with
  | plain | commandWord | consumerIndex => exact hs
  | settings b => exact dropEntries_bounded b hs
  | argument x => cases x <;> exact hs
  | bayRead b overtaken =>
    simp only [finishRequest, rejudgeRead]
    split_ifs
    · exact addEntry_bounded _ hs
    · exact hs
    · exact removeEntry_bounded _ hs
    · exact hs

theorem finishFetch_bounded {x : Fetch} {s : State} (hs : TablesBounded s) : TablesBounded (finishFetch x s) := by
  refine (fetchJudge_moves _).tablesBounded ?_
  split
  · exact hs
  · refine hs.of_same rfl ?_ rfl
    simp only [State.fetched, State.clearFetch, List.map_map]
    refine List.map_congr_left fun e _ => ?_
    simp only [Function.comp_apply]
    split
    · rename_i he
      exact (beq_iff_eq.1 he).symm
    · rfl

theorem lose_key (n : Nat) (e : DelayedEntry) : (e.lose n).key = e.key := by
  unfold DelayedEntry.lose
  split <;> rfl

theorem passPeriods_keys (n : Nat) (s : State) :
    (passPeriods n s).access.table.map DelayedEntry.key = s.access.table.map DelayedEntry.key := by
  simp only [passPeriods, List.map_map]
  exact List.map_congr_left fun e _ => lose_key n e

theorem yardTick_access (s : State) : (yardTick s).access = (passPeriods (secondPeriods - s.clock.base) s).access := by
  unfold yardTick counterRewrite tickTimers
  split_ifs <;> rfl

theorem yardTick_inbox (s : State) : (yardTick s).inbox = s.inbox := by
  unfold yardTick counterRewrite tickTimers
  split_ifs <;> rfl

theorem blank_bounded (p : List Instr) (pins : Pins) (m : Memory) (n : Nat) :
    TablesBounded (State.blank p pins m n) :=
  ⟨Nat.zero_le _, Nat.zero_le _, List.nodup_nil, show 0 < 1000000 by decide⟩

theorem Change.bounded {s t : State} (h : Change s t) (hs : TablesBounded s) : TablesBounded t := by
  cases h with
  | queue | line | counts | clearsAnswer | grantsPort | noticeEnds | resultEnds | firstBurstEnds => exact hs
  | resetFalls => exact blank_bounded _ _ _ _
  | resetReleases memsize =>
    exact blank_bounded s.pending { s.pins with resetN := true, memsize := memsize, attnN := true } s.mem s.freeUsed
  | claims x => exact hs.of_same (by cases x <;> rfl) (by cases x <;> rfl) (by rw [claim_clock])
  | presents => rw [statusSettle_eq]; exact hs
  | haltCompletes => exact (completeHalt_moves s).tablesBounded hs
  | unlocks l => exact (unlocked_moves l.bay _).tablesBounded hs
  | answers r => exact (answer_cases r s).bounded hs
  | requestEnds o => exact finishRequest_bounded _ _ _ hs
  | updateEnds x => exact (endUpdate_moves x.bay _).tablesBounded hs
  | blockEnds n =>
    refine hs.of_same ?_ ?_ ?_ <;> unfold State.presentPending State.afterBlock <;> split_ifs <;> rfl
  | fetchEnds x => exact finishFetch_bounded hs
  | takes e rest _ _ head =>
    obtain ⟨hi, hl, hn, hb⟩ := hs
    refine (takeEntry_moves e _).tablesBounded ⟨?_, hl, hn, hb⟩
    rw [head, List.length_cons] at hi
    exact (Nat.le_succ _).trans hi
  | expires b x => exact (timerExpires_moves b x s).tablesBounded hs
  | activates f => exact (becomeActive_moves f s).tablesBounded hs
  | restores f => exact (startRestore_moves f s).tablesBounded hs
  | trips f => exact (tripFeeder_moves f s).tablesBounded hs
  | reclaims k => exact removeEntry_bounded k hs
  | passes n _ short =>
    rw [tablesBounded_iff] at *
    rw [passPeriods_keys]
    obtain ⟨hi, hl, hn, -⟩ := hs
    exact ⟨hi, hl, hn, short⟩
  | ticks =>
    rw [tablesBounded_iff] at *
    rw [yardTick_access, passPeriods_keys, yardTick_inbox, yardTick_base]
    obtain ⟨hi, hl, hn, -⟩ := hs
    exact ⟨hi, hl, hn, by decide⟩

/-! ## In PASS (R15, R168) -/

/-- The paths of bay-record requests. -/
def Path.ofBay : Path → Bool
  | .bayRead _ _ | .settings _ => true
  | .plain | .argument _ | .commandWord | .consumerIndex => false

/-- Nothing is queued, locked, delayed, fetched or outstanding for a bay record. -/
structure Quiet (s : State) : Prop where
  inbox : s.inbox = []
  lock : s.access.lock = none
  table : s.access.table = []
  fetch : s.access.fetch = none
  path : ∀ o, s.front.outstanding = some o → o.path.ofBay = false

theorem passQuiet_iff (s : State) : PassQuiet s ↔ (s.decoder.mode = .pass → Quiet s) := by
  have hpath : ∀ p : Path, p.ofBay = false ↔ ∀ b v, p ≠ .bayRead b v ∧ p ≠ .settings b := fun p => by
    cases p with
    | plain | argument | commandWord | consumerIndex => simp [Path.ofBay]
    | bayRead b v => simp only [Path.ofBay, Bool.true_eq_false, false_iff]; exact fun h => (h b v).1 rfl
    | settings b => simp only [Path.ofBay, Bool.true_eq_false, false_iff]; exact fun h => (h b false).2 rfl
  constructor
  · intro h hm
    obtain ⟨hi, hl, ht, hf, hp⟩ := h hm
    exact ⟨hi, hl, ht, hf, fun o ho => (hpath _).2 (hp o ho)⟩
  · intro h hm
    obtain ⟨hi, hl, ht, hf, hp⟩ := h hm
    exact ⟨hi, hl, ht, hf, fun o ho => (hpath _).1 (hp o ho)⟩

theorem Quiet.of_same {s t : State} (hs : Quiet s) (hi : t.inbox = s.inbox) (ha : t.access = s.access)
    (hf : t.front = s.front) : Quiet t :=
  ⟨hi ▸ hs.inbox, ha ▸ hs.lock, ha ▸ hs.table, ha ▸ hs.fetch, hf ▸ hs.path⟩

theorem overtake_ofBay (b : BayNo) (p : Path) : (p.overtake b).ofBay = p.ofBay := by cases p <;> rfl

theorem commitCore_quiet (b : BayNo) (w : Work) (full : Bool) {s : State} (hs : Quiet s) :
    Quiet (commitCore b w full s) where
  inbox := hs.inbox
  lock := hs.lock
  table := by
    show s.access.table.map _ = []
    rw [hs.table, List.map_nil]
  fetch := by
    show s.access.fetch.map _ = none
    rw [hs.fetch, Option.map_none]
  path := by
    intro o ho
    obtain ⟨o', ho', rfl⟩ := Option.map_eq_some_iff.1 (show s.front.outstanding.map _ = some o from ho)
    exact (overtake_ofBay b o'.path).trans (hs.path o' ho')

theorem applyReports_frame (b : BayNo) (rs : List Report) (s : State) :
    rs.foldl (applyReport b) s = { s with feeders := (rs.foldl (applyReport b) s).feeders } := by
  induction rs generalizing s with
  | nil => rfl
  | cons r rest ih => exact ih (applyReport b s r)

theorem opened_quiet (b : BayNo) (w : Work) (full : Bool) {s : State} (hs : Quiet s) : Quiet (opened b w full s) := by
  unfold opened
  rw [applyReports_frame]
  exact (commitCore_quiet b w full hs).of_same rfl rfl rfl

theorem linkMap_quiet (a : RadioAddr) (b : BayNo) {s : State} (hs : Quiet s) : Quiet (linkMap a b s) := by
  unfold linkMap
  split <;> exact hs.of_same rfl rfl rfl

theorem fetchJudge_quiet {s : State} (hs : Quiet s) : Quiet (fetchJudge s) := by
  unfold fetchJudge
  simp [hs.fetch, hs.table, hs]

theorem finish_quiet (r : Result) {s : State} (hs : Quiet s) : Quiet (s.finish r) := by
  rw [finish_eq]
  exact hs.of_same rfl rfl rfl

theorem Deed.quiet {lawful : Prop} {s t : State} (h : Deed lawful s t) (hs : Quiet s) : Quiet t := by
  cases h with
  | opens b w full => exact opened_quiet b w full hs
  | maps a b => exact opened_quiet b _ true (linkMap_quiet a b hs)
  | unmaps a b => exact opened_quiet b _ true (hs.of_same rfl rfl rfl)
  | grants f b => exact commitCore_quiet b _ false (hs.of_same rfl rfl rfl)
  | finishes r => exact finish_quiet r hs
  | fetches => exact fetchJudge_quiet hs
  | progresses | lists | hands | counts | wants => exact hs.of_same rfl rfl rfl

theorem Deeds.quiet {lawful : Prop} {s t : State} (h : Deeds lawful s t) (hs : Quiet s) : Quiet t :=
  h.keeps (fun _ _ hd => hd.quiet) hs

theorem completeHalt_quiet {s : State} (hs : Quiet s) : Quiet (completeHalt s) :=
  finish_quiet .ok (hs.of_same rfl rfl rfl)

theorem acknowledge_quiet {s : State} (hs : Quiet s) : Quiet (acknowledge s) := by
  unfold acknowledge
  split
  · exact hs.of_same rfl rfl rfl
  · exact hs

theorem takeCommand_quiet (cmd : Command) {s : State} (hs : Quiet s) : Quiet (s.takeCommand cmd) := by
  simp only [State.takeCommand, State.leaveDone]
  split <;> exact hs.of_same rfl rfl rfl

/-- A command leaves PASS with what it found there quiet, since in PASS the part was quiet. -/
theorem takeAndRun_passQuiet {s : State} (code : Word) (hs : PassQuiet s) : PassQuiet (takeAndRun code s) := by
  rw [passQuiet_iff] at *
  intro hm
  obtain ⟨u, hu, hrun⟩ := takeAndRun_deeds (lawful := False) code s
  rw [hrun.moves.decoder] at hm
  have hpass := hu.pass hm
  rw [takeCommand_decoder] at hpass
  have htake := takeCommand_quiet (s.mailbox.commandOf code) (hs hpass)
  refine hrun.quiet (htake.of_same ?_ ?_ ?_) <;> rw [hu.rest]

/-- A request passed on or answered leaves the rest of the quiet part as it was. -/
theorem Quiet.pass {s : State} (hs : Quiet s) (r : Request) {p : Path} (hp : p.ofBay = false) : Quiet (s.pass r p) :=
  ⟨hs.inbox, hs.lock, hs.table, hs.fetch, fun o ho => by cases ho; exact hp⟩

theorem Quiet.complete {s : State} (hs : Quiet s) (i : Initiator) (c : Completion) : Quiet (s.complete i c) :=
  ⟨hs.inbox, hs.lock, hs.table, hs.fetch, fun o ho => by cases ho⟩

theorem Quiet.clearFront {s : State} (hs : Quiet s) : Quiet { s with front := ⟨none, none⟩ } :=
  ⟨hs.inbox, hs.lock, hs.table, hs.fetch, fun o ho => by cases ho⟩

theorem removeEntry_quiet (k : ReadKey) {s : State} (hs : Quiet s) : Quiet (s.removeEntry k) :=
  ⟨hs.inbox, hs.lock, by simp [State.removeEntry, hs.table], hs.fetch, hs.path⟩

theorem Answer.passQuiet {r : Request} {s t : State} (h : Answer r s t) (hs : PassQuiet s) : PassQuiet t := by
  rw [passQuiet_iff] at hs
  cases h with
  | completes c => exact (passQuiet_iff _).2 fun hm => (hs hm).complete _ _
  | queues e running => exact (passQuiet_iff _).2 fun hm => absurd (running.symm.trans hm) (by decide)
  | delays windowed =>
    refine (passQuiet_iff _).2 fun hm => absurd ?_ windowed
    rwa [complete_decoder, addEntry_decoder] at hm
  | delivers data => exact (passQuiet_iff _).2 fun hm => (removeEntry_quiet _ (hs hm)).complete _ _
  | passes p windowed =>
    refine (passQuiet_iff _).2 fun hm => (hs hm).pass r ?_
    cases p with
    | plain | argument | commandWord | consumerIndex => rfl
    | bayRead b v => exact absurd hm (windowed (.inl ⟨b, v, rfl⟩))
    | settings b => exact absurd hm (windowed (.inr ⟨b, rfl⟩))
  | locks b windowed => exact (passQuiet_iff _).2 fun hm => absurd hm windowed
  | sets b x r' windowed => exact (passQuiet_iff _).2 fun hm => absurd hm windowed
  | consumes v => exact (passQuiet_iff _).2 fun hm => (Quiet.of_same (hs hm) (by rfl) (by rfl) (by rfl)).pass r rfl
  | acknowledges =>
    refine (passQuiet_iff _).2 fun hm => (acknowledge_quiet (hs ?_)).pass r rfl
    rwa [pass_decoder, (acknowledge_moves s).decoder] at hm
  | commands code =>
    refine (passQuiet_iff _).2 fun hm => ?_
    have hrun := takeAndRun_passQuiet code ((passQuiet_iff s).2 hs)
    exact ((passQuiet_iff _).1 hrun hm).pass r rfl

/-- In PASS no bay-record request is outstanding, so the request that completes leaves the tables empty. -/
theorem finishRequest_quiet (r : Request) (data : List Word) {s : State} {p : Path} (hp : p.ofBay = false)
    (hs : Quiet s) : Quiet (finishRequest r data s p) := by
  cases p with
  | plain | commandWord | consumerIndex => exact hs.complete _ _
  | argument x => cases x <;> exact Quiet.complete (hs.of_same (by rfl) (by rfl) (by rfl)) _ _
  | bayRead | settings => cases hp

theorem finishFetch_quiet {x : Fetch} {s : State} (hx : s.access.fetch = some x) (hs : Quiet s) :
    Quiet (finishFetch x s) := by
  rw [hs.fetch] at hx
  cases hx

theorem passPeriods_quiet (n : Nat) {s : State} (hs : Quiet s) : Quiet (passPeriods n s) :=
  ⟨hs.inbox, by simp [passPeriods, hs.lock], by simp [passPeriods, hs.table], hs.fetch, hs.path⟩

theorem yardTick_quiet {s : State} (hs : Quiet s) : Quiet (yardTick s) := by
  refine (passPeriods_quiet (secondPeriods - s.clock.base) hs).of_same (yardTick_inbox s) (yardTick_access s) ?_
  unfold yardTick counterRewrite tickTimers
  split_ifs <;> rfl

theorem blank_quiet (p : List Instr) (pins : Pins) (m : Memory) (n : Nat) : Quiet (State.blank p pins m n) :=
  ⟨rfl, rfl, rfl, rfl, fun _ h => by cases h⟩

theorem foldl_quiet {α : Type} {g : State → α → State} (h : ∀ s a, Quiet s → Quiet (g s a)) (l : List α) {s : State}
    (hs : Quiet s) : Quiet (l.foldl g s) := by
  induction l generalizing s with
  | nil => exact hs
  | cons a rest ih => exact ih (h s a hs)

theorem raiseFeeder_quiet (f : FeederNo) (c : Condition) {s : State} (hs : Quiet s) : Quiet (raiseFeeder f c s) := by
  unfold raiseFeeder
  split
  · exact hs
  · exact hs.of_same rfl rfl rfl

theorem setFeeder_quiet (f : FeederNo) (x : Feeder) {s : State} (hs : Quiet s) : Quiet (s.setFeeder f x) :=
  hs.of_same rfl rfl rfl

theorem wantRewrite_quiet {s : State} (hs : Quiet s) : Quiet s.wantRewrite := hs.of_same rfl rfl rfl

theorem becomeActive_quiet (f : FeederNo) {s : State} (hs : Quiet s) : Quiet (becomeActive f s) :=
  (act_deeds (lawful := False) f _).quiet (wantRewrite_quiet (raiseFeeder_quiet f _ (setFeeder_quiet f _ hs)))

theorem tripFeeder_quiet (f : FeederNo) {s : State} (hs : Quiet s) : Quiet (tripFeeder f s) := by
  simp only [tripFeeder]
  refine foldl_quiet (fun u b hu => (offerHeld_deeds (lawful := False) b (by decide) u).quiet hu) _ ?_
  have hrevoke := foldl_quiet (g := revokeOne f) (fun u b hu => hu.of_same rfl rfl rfl) (s.feeder f).grants hs
  exact wantRewrite_quiet (raiseFeeder_quiet f _ (setFeeder_quiet f _ hrevoke))

/-- A change outside the requests keeps the mode, or resets the part, and keeps a quiet part quiet. -/
theorem Change.passQuiet {s t : State} (h : Change s t) (hs : PassQuiet s) : PassQuiet t := by
  have keep : ∀ {u : State}, u.decoder = s.decoder → (Quiet s → Quiet u) → PassQuiet u := fun hd hq =>
    (passQuiet_iff _).2 fun hm => hq ((passQuiet_iff s).1 hs (by rw [← hd]; exact hm))
  cases h with
  | queue | line | counts | grantsPort | noticeEnds | resultEnds | firstBurstEnds =>
    exact keep rfl fun hq => hq.of_same rfl rfl rfl
  | clearsAnswer => exact keep rfl fun hq => ⟨hq.inbox, hq.lock, hq.table, hq.fetch, hq.path⟩
  | resetFalls => exact (passQuiet_iff _).2 fun _ => blank_quiet _ _ _ _
  | resetReleases memsize =>
    refine (passQuiet_iff _).2 fun _ => (blank_quiet s.pending ?_ s.mem s.freeUsed).of_same rfl rfl rfl
    exact { s.pins with resetN := true, memsize := memsize, attnN := true }
  | claims x =>
    exact keep (by cases x <;> rfl) fun hq => hq.of_same (by cases x <;> rfl) (by cases x <;> rfl) (claim_front s x)
  | presents =>
    rw [statusSettle_eq]
    exact keep rfl fun hq => hq.of_same rfl rfl rfl
  | haltCompletes => exact keep (completeHalt_moves s).decoder completeHalt_quiet
  | unlocks l _ held =>
    refine keep (unlocked_moves l.bay _).decoder fun hq => ?_
    rw [hq.lock] at held
    cases held
  | answers r => exact (answer_cases r s).passQuiet hs
  | requestEnds o _ out =>
    exact keep (finishRequest_decoder _ _ _ _) fun hq =>
      finishRequest_quiet _ _ (hq.path o out) (hq.of_same rfl rfl rfl)
  | updateEnds x =>
    exact keep (endUpdate_moves x.bay _).decoder fun hq =>
      (endUpdate_deeds (lawful := False) (fun hl => hl.elim)).quiet (hq.of_same rfl rfl rfl)
  | blockEnds n =>
    have hkeep : ∀ u : State, (u.afterBlock n).presentPending.decoder = u.decoder
        ∧ (Quiet u → Quiet (u.afterBlock n).presentPending) := fun u => by
      unfold State.presentPending State.afterBlock
      split_ifs <;> exact ⟨rfl, fun hq => hq.of_same rfl rfl rfl⟩
    exact keep (hkeep _).1 fun hq => (hkeep _).2 (hq.of_same rfl rfl rfl)
  | fetchEnds x _ under =>
    refine keep ?_ (finishFetch_quiet under)
    simp only [finishFetch, fetchJudge_decoder]
    split <;> rfl
  | takes e rest _ running =>
    refine (passQuiet_iff _).2 fun hm => ?_
    rw [takeEntry_decoder] at hm
    exact absurd (running.symm.trans hm) (by decide)
  | expires b x =>
    exact keep (timerExpires_moves b x s).decoder fun hq =>
      (offerHeld_deeds (lawful := False) b (by simp) _).quiet (hq.of_same rfl rfl rfl)
  | activates f => exact keep (becomeActive_moves f s).decoder (becomeActive_quiet f)
  | restores f => exact keep rfl fun hq => hq.of_same rfl rfl rfl
  | trips f => exact keep (tripFeeder_moves f s).decoder (tripFeeder_quiet f)
  | reclaims k => exact keep rfl (removeEntry_quiet k)
  | passes n => exact keep rfl (passPeriods_quiet n)
  | ticks => exact keep (yardTick_decoder s) yardTick_quiet

theorem step_tablesBounded {s t : State} (hs : TablesBounded s) (h : step s = .next t) : TablesBounded t :=
  step_keeps (fun _ _ hc => hc.bounded) hs h

theorem step_passQuiet {s t : State} (hs : PassQuiet s) (h : step s = .next t) : PassQuiet t :=
  step_keeps (fun _ _ hc => hc.passQuiet) hs h

end Sys2Proof.Machine

/-! PROOFS. R82, R107-R109: the reports of an update account for the bay's place in the Feeder Table, and in the order of R110
they are applied as they were made. -/

namespace Sys2Proof.Machine

/-! ## The place of a bay at its feeder -/

/-- Where an entry of the Feeder Table lists a bay: in a grant list, in a wait queue, among the self-started, or nowhere. -/
inductive Place where
  | nowhere
  | grant (f : FeederNo)
  | queue (f : FeederNo)
  | self (f : FeederNo)

/-- The place a bay's entry asks for (R107, R108, R109). -/
def BayEntry.place (e : BayEntry) : Place :=
  match e.defrost.state with
  | .ordered | .running | .stopping =>
    match e.defrost.grantFeeder with
    | some f => .grant f
    | none => .nowhere
  | .due => if e.defrost.reason = .queued then .queue e.feeder else .nowhere
  | .self => .self e.feeder
  | .idle | .draining => .nowhere

/-- The reports with which a bay leaves a place. -/
def Place.leaves : Place → List Report
  | .nowhere => []
  | .grant f => [.release f]
  | .queue f => [.leaveQueue f]
  | .self f => [.selfLeave f]

/-- The reports with which a bay joins a place. -/
inductive Joins : Place → List Report → Prop
  | nowhere : Joins .nowhere []
  | queue (f : FeederNo) (t : Time) : Joins (.queue f) [.joinQueue f t]
  | self (f : FeederNo) : Joins (.self f) [.selfJoin f]

/-- The reports of an update that takes a bay from one place to another: none, a leaving and a joining, or the direct grant of
R113, which only a feeder with room gives. -/
inductive Ledger (room : Bool) (home : FeederNo) : Place → List Report → Place → Prop
  | stays (p : Place) : Ledger room home p [] p
  | moves (p : Place) {q : Place} {js : List Report} (joins : Joins q js) : Ledger room home p (p.leaves ++ js) q
  | direct (p : Place) (able : room = true) (free : p = .nowhere ∨ p = .queue home) :
    Ledger room home p [.directGrant home] (.grant home)

/-- A change whose further reports account for the place it leaves the bay at. -/
def Books (c : Ctx) (w w' : Work) : Prop :=
  ∃ rs, w'.reports = w.reports ++ rs ∧ Ledger c.room w.bay.feeder w.bay.place rs w'.bay.place

/-- A change that reports nothing and leaves the bay at its place and its feeder. -/
structure Stays (w w' : Work) : Prop where
  reports : w'.reports = w.reports
  state : w'.bay.defrost.state = w.bay.defrost.state
  reason : w'.bay.defrost.reason = w.bay.defrost.reason
  grantFeeder : w'.bay.defrost.grantFeeder = w.bay.defrost.grantFeeder
  feeder : w'.bay.feeder = w.bay.feeder

theorem Stays.refl (w : Work) : Stays w w := ⟨rfl, rfl, rfl, rfl, rfl⟩

theorem Stays.trans {w w' w'' : Work} (h : Stays w w') (h' : Stays w' w'') : Stays w w'' :=
  ⟨h'.reports.trans h.reports, h'.state.trans h.state, h'.reason.trans h.reason, h'.grantFeeder.trans h.grantFeeder,
    h'.feeder.trans h.feeder⟩

theorem Stays.ite {w w' w'' : Work} {c : Prop} [Decidable c] (h : Stays w w') (h' : Stays w w'') :
    Stays w (if c then w' else w'') := by
  split
  · exact h
  · exact h'

theorem Stays.place {w w' : Work} (h : Stays w w') : w'.bay.place = w.bay.place := by
  unfold BayEntry.place
  rw [h.state, h.reason, h.grantFeeder, h.feeder]

theorem Stays.books {w w' : Work} (h : Stays w w') (c : Ctx) : Books c w w' :=
  ⟨[], by rw [h.reports, List.append_nil], by rw [h.place]; exact .stays _⟩

theorem Books.before {c : Ctx} {w w' w'' : Work} (h : Stays w w') (h' : Books c w' w'') : Books c w w'' := by
  obtain ⟨rs, hr, hl⟩ := h'
  refine ⟨rs, by rw [hr, h.reports], ?_⟩
  rwa [h.place, h.feeder] at hl

theorem Books.after {c : Ctx} {w w' w'' : Work} (h : Books c w w') (h' : Stays w' w'') : Books c w w'' := by
  obtain ⟨rs, hr, hl⟩ := h
  exact ⟨rs, by rw [h'.reports, hr], by rwa [h'.place]⟩

theorem Books.ite {c : Ctx} {w w' w'' : Work} {p : Prop} [Decidable p] (h : p → Books c w w') (h' : ¬ p → Books c w w'') :
    Books c w (if p then w' else w'') := by
  split
  · rename_i hp; exact h hp
  · rename_i hp; exact h' hp

theorem stays_setTimer (w : Work) (t : BayTimer) (x : Timer) : Stays w (w.setTimer t x) := by
  cases t <;> exact ⟨rfl, rfl, rfl, rfl, rfl⟩

theorem stays_raises (w : Work) (k : AlertKind) (x : Condition) : Stays w (w.raises k x) := ⟨rfl, rfl, rfl, rfl, rfl⟩

theorem stays_pendOrder (w : Work) (k : OrderKind) (f : Option FeederNo) : Stays w (w.pendOrder k f) :=
  ⟨rfl, rfl, rfl, rfl, rfl⟩

theorem stays_withdrawStart (w : Work) : Stays w w.withdrawStart := .ite ⟨rfl, rfl, rfl, rfl, rfl⟩ (.refl w)

theorem stays_withdrawOrder (w : Work) : Stays w w.withdrawOrder := .ite ⟨rfl, rfl, rfl, rfl, rfl⟩ (.refl w)

/-! ## Leaving and entering a state -/

/-- The release of a grant reports it and leaves no grant feeder (R81). -/
theorem release_spec (w : Work) :
    w.release.reports = w.reports ++ (w.bay.defrost.grantFeeder.map Report.release).toList
      ∧ w.release.bay.defrost.state = w.bay.defrost.state ∧ w.release.bay.defrost.reason = w.bay.defrost.reason
      ∧ w.release.bay.defrost.grantFeeder = none ∧ w.release.bay.feeder = w.bay.feeder := by
  unfold Work.release
  simp only []
  cases hg : w.bay.defrost.grantFeeder with
  | none =>
    obtain ⟨hr, hs, hd, hf, hb⟩ := stays_withdrawStart (w.defrost { w.bay.defrost with grantFeeder := none })
    exact ⟨by rw [hr]; exact (List.append_nil _).symm, hs, hd, hf, hb⟩
  | some f =>
    obtain ⟨hr, hs, hd, hf, hb⟩ :=
      stays_withdrawStart ((w.report (.release f)).defrost { w.bay.defrost with grantFeeder := none })
    exact ⟨hr, hs, hd, hf, hb⟩

/-- A bay that goes from a granted state to another keeps its place; any other leaves its place. -/
theorem leave_spec (new : DefrostState) (w : Work) :
    (w.leave new).reports =
        w.reports ++ (if w.bay.defrost.state.granted && new.granted then [] else w.bay.place.leaves)
      ∧ (w.leave new).bay.defrost.grantFeeder =
        (if w.bay.defrost.state.granted && !new.granted then none else w.bay.defrost.grantFeeder)
      ∧ (w.leave new).bay.feeder = w.bay.feeder := by
  have granted : w.bay.defrost.state.granted = true →
      w.bay.place.leaves = (w.bay.defrost.grantFeeder.map Report.release).toList := fun h => by
    cases hs : w.bay.defrost.state <;> simp only [hs, DefrostState.granted, Bool.false_eq_true] at h <;>
      cases hg : w.bay.defrost.grantFeeder <;> simp [BayEntry.place, hs, hg, Place.leaves]
  obtain ⟨hr, -, -, hf, hb⟩ := release_spec w
  unfold Work.leave
  cases hs : w.bay.defrost.state with
  | due => by_cases hq : w.bay.defrost.reason = .queued <;>
      simp [BayEntry.place, hs, hq, Place.leaves, DefrostState.granted, Work.report, Work.defrost]
  | ordered | running | stopping =>
    rw [hs] at granted
    cases hn : new.granted <;> simp [DefrostState.granted, hr, hf, hb, granted rfl]
  | self => simp [BayEntry.place, hs, Place.leaves, DefrostState.granted, Work.report]
  | idle | draining => simp [BayEntry.place, hs, Place.leaves, DefrostState.granted]

/-- Entering a state sets it, keeps reason, grant feeder (but for IDLE) and assigned feeder, and reports a self start. -/
theorem enter_spec (p : Params) (new : DefrostState) (w : Work) :
    (w.enter p new).reports = w.reports ++ (if new = .self then [.selfJoin w.bay.feeder] else [])
      ∧ (w.enter p new).bay.defrost.state = new ∧ (w.enter p new).bay.defrost.reason = w.bay.defrost.reason
      ∧ (w.enter p new).bay.defrost.grantFeeder = (if new = .idle then none else w.bay.defrost.grantFeeder)
      ∧ (w.enter p new).bay.feeder = w.bay.feeder := by
  cases new <;>
    simp [Work.enter, Work.setTimer, Work.defrost, Work.pendOrder, Work.report, BayEntry.setTimer, BayEntry.putTimer,
      BayEntry.markStale]

/-- A move into a state other than DUE and ORDERED; into a granted state only from one, or without a grant feeder. -/
theorem moveTo_books (c : Ctx) {new : DefrostState} (w : Work) (hdue : new ≠ .due) (hord : new ≠ .ordered)
    (hg : new.granted = true → w.bay.defrost.state.granted = true ∨ w.bay.defrost.grantFeeder = none) :
    Books c w (w.moveTo c.params new) := by
  have leaving : ∀ {x : DefrostState}, (x = .idle ∨ x = .draining) → Books c w ((w.leave x).enter c.params x) := fun {x} hx => by
    obtain ⟨hr, -, -⟩ := leave_spec x w
    obtain ⟨hr', hs', -, -, -⟩ := enter_spec c.params x (w.leave x)
    refine ⟨w.bay.place.leaves ++ [], ?_, ?_⟩
    · rw [hr', hr]
      rcases hx with rfl | rfl <;> simp [DefrostState.granted]
    · have hp : ((w.leave x).enter c.params x).bay.place = .nowhere := by
        unfold BayEntry.place
        rw [hs']
        rcases hx with rfl | rfl <;> rfl
      rw [hp]
      exact .moves _ .nowhere
  have between : new.granted = true → Books c w ((w.leave new).enter c.params new) := fun hn => by
    obtain ⟨hr, hgf, hb⟩ := leave_spec new w
    obtain ⟨hr', hs', -, hgf', -⟩ := enter_spec c.params new (w.leave new)
    have hself : new ≠ .self := fun h => by rw [h] at hn; cases hn
    have hidle : new ≠ .idle := fun h => by rw [h] at hn; cases hn
    rw [if_neg hself, List.append_nil, hr] at hr'
    rw [if_neg hidle, hgf, hn] at hgf'
    simp only [hn, Bool.and_true, Bool.not_true, Bool.and_false, Bool.false_eq_true, if_false] at hr' hgf'
    have hplace : ∀ e : BayEntry, e.defrost.state.granted = true →
        e.place = (match e.defrost.grantFeeder with | some f => .grant f | none => .nowhere) := fun e he => by
      unfold BayEntry.place
      cases hse : e.defrost.state <;> simp only [hse, DefrostState.granted, Bool.false_eq_true] at he <;> rfl
    have hnew := hplace ((w.leave new).enter c.params new).bay (by rw [hs']; exact hn)
    rw [hgf'] at hnew
    cases hw : w.bay.defrost.state.granted with
    | true =>
      rw [hw] at hr'
      refine ⟨[], by rw [hr']; rfl, ?_⟩
      rw [hnew, ← hplace w.bay hw]
      exact .stays _
    | false =>
      rw [hw] at hr' hg
      refine ⟨w.bay.place.leaves ++ [], by rw [hr', List.append_nil]; rfl, ?_⟩
      rw [hnew, (hg hn).resolve_left (by decide)]
      exact .moves _ .nowhere
  unfold Work.moveTo
  simp only []
  cases new with
  | due => exact absurd rfl hdue
  | ordered => exact absurd rfl hord
  | idle => exact leaving (.inl rfl)
  | draining =>
    split
    · exact leaving (.inl rfl)
    · exact leaving (.inr rfl)
  | running | stopping => exact between rfl
  | self =>
    obtain ⟨hr, -, hb⟩ := leave_spec .self w
    obtain ⟨hr', hs', -, -, hb'⟩ := enter_spec c.params .self (w.leave .self)
    refine ⟨w.bay.place.leaves ++ [.selfJoin w.bay.feeder], ?_, ?_⟩
    · show ((w.leave .self).enter c.params .self).reports = _
      rw [hr', hr, hb]
      simp [DefrostState.granted]
    · have hp : ((w.leave .self).enter c.params .self).bay.place = .self w.bay.feeder := by
        unfold BayEntry.place
        rw [hs', hb', hb]
      show Ledger _ _ _ _ ((w.leave .self).enter c.params .self).bay.place
      rw [hp]
      exact .moves _ (.self _)

/-! ## Routing the power (R89, R90) -/

/-- A bay in DUE that stands in no queue joins the place its power leads to. -/
theorem routePower_joins (c : Ctx) (w : Work) (hd : w.bay.defrost.state = .due) :
    ∃ js, (w.routePower c).reports = w.reports ++ js ∧ Joins (w.routePower c).bay.place js := by
  unfold Work.routePower
  simp only []
  split
  · refine ⟨[.joinQueue w.bay.feeder c.now], rfl, ?_⟩
    have hp : ((w.defrost { w.bay.defrost with reason := .queued }).report (.joinQueue w.bay.feeder c.now)).bay.place
        = .queue w.bay.feeder := by simp [BayEntry.place, Work.report, Work.defrost, hd]
    rw [hp]
    exact .queue _ _
  · split
    · refine ⟨[], (enter_spec c.params .ordered _).1, ?_⟩
      obtain ⟨-, hs, -, hg, -⟩ :=
        enter_spec c.params .ordered (w.defrost { w.bay.defrost with reason := .queued, grantFeeder := none })
      unfold BayEntry.place
      rw [hs, hg]
      exact .nowhere
    · refine ⟨[], (List.append_nil _).symm, ?_⟩
      have hp : (w.defrost { w.bay.defrost with reason := .held }).bay.place = .nowhere := by
        simp [BayEntry.place, Work.defrost, hd]
      rw [hp]
      exact .nowhere

theorem enterDue_books (c : Ctx) (w : Work) : Books c w (w.enterDue c) := by
  have hmove : w.moveTo c.params .due = (w.leave .due).enter c.params .due := by simp [Work.moveTo]
  obtain ⟨hr, -, -⟩ := leave_spec .due w
  obtain ⟨hr', hs', -, -, -⟩ := enter_spec c.params .due (w.leave .due)
  unfold Work.enterDue
  rw [hmove]
  obtain ⟨js, hj, hplace⟩ := routePower_joins c _ hs'
  refine ⟨w.bay.place.leaves ++ js, ?_, .moves _ hplace⟩
  rw [hj, hr', hr]
  simp [DefrostState.granted]

theorem demand_books (c : Ctx) (w : Work) : Books c w (w.demand c) :=
  .before (w' := w.defrost { w.bay.defrost with iceCount := 0 }) ⟨rfl, rfl, rfl, rfl, rfl⟩ (enterDue_books c _)

theorem reroute_books (c : Ctx) (w : Work) (hd : w.bay.defrost.state = .due) : Books c w (w.reroute c) := by
  unfold Work.reroute
  simp only []
  split
  · rename_i hq
    refine .ite (fun _ => (Stays.refl w).books c) fun _ => ?_
    obtain ⟨js, hj, hplace⟩ :=
      routePower_joins c ((w.defrost { w.bay.defrost with reason := .held }).report (.leaveQueue w.bay.feeder)) hd
    have hp : w.bay.place = .queue w.bay.feeder := by simp [BayEntry.place, hd, hq]
    refine ⟨w.bay.place.leaves ++ js, ?_, .moves _ hplace⟩
    rw [hj, hp, ← List.append_assoc]
    rfl
  · rename_i hq
    obtain ⟨js, hj, hplace⟩ := routePower_joins c w hd
    have hp : w.bay.place = .nowhere := by simp [BayEntry.place, hd, hq]
    refine ⟨w.bay.place.leaves ++ js, ?_, .moves _ hplace⟩
    rw [hj, hp]
    rfl

theorem unordered_books (c : Ctx) (w : Work) : Books c w (w.unordered c) := by
  unfold Work.unordered
  exact .before (stays_raises w _ _) (moveTo_books c _ (by decide) (by decide) (by simp [DefrostState.granted]))

/-! ## The defrost stage -/

theorem defrostEnds_books (c : Ctx) (w : Work) : Books c w (w.defrostEnds c) :=
  .before (w' := w.defrost { w.bay.defrost with lastEnd := some w.bay.reading.arrival, attempts := 0 })
    ⟨rfl, rfl, rfl, rfl, rfl⟩ (moveTo_books c _ (by decide) (by decide) (by simp [DefrostState.granted]))

theorem stageLateStart_books (c : Ctx) (w : Work) (hd : w.bay.defrost.state = .due) :
    Books c w (w.stageLateStart c) := by
  have hplace : w.bay.place = .nowhere ∨ w.bay.place = .queue w.bay.feeder := by
    by_cases hq : w.bay.defrost.reason = .queued <;> simp [BayEntry.place, hd, hq]
  unfold Work.stageLateStart
  simp only []
  refine .ite (fun _ => .ite (fun hroom => ?_) fun _ => unordered_books c w) fun _ =>
    .ite (fun _ => ?_) fun _ => unordered_books c w
  · obtain ⟨hr, hs, -, hg, -⟩ := enter_spec c.params .running
      ((w.defrost { w.bay.defrost with reason := .queued, grantFeeder := some w.bay.feeder }).report
        (.directGrant w.bay.feeder))
    refine ⟨[.directGrant w.bay.feeder], by rw [hr]; exact List.append_nil _, ?_⟩
    unfold BayEntry.place at *
    rw [hs, hg]
    exact .direct _ hroom hplace
  · obtain ⟨rs, hr, hl⟩ := moveTo_books c (new := .running)
      (w.defrost { w.bay.defrost with grantFeeder := none }) (by decide) (by decide) fun _ => .inr rfl
    refine ⟨rs, hr, ?_⟩
    have hp : (w.defrost { w.bay.defrost with grantFeeder := none }).bay.place = w.bay.place := by
      simp [BayEntry.place, Work.defrost, hd]
    rwa [hp] at hl

theorem stageOrdered_books (c : Ctx) (w : Work) (hd : w.bay.defrost.state = .ordered) : Books c w (w.stageOrdered c) := by
  have hmove : ∀ {u : Work} {new : DefrostState}, Stays w u → new ≠ .due → new ≠ .ordered →
      Books c w (u.moveTo c.params new) := fun hu h1 h2 =>
    .before hu (moveTo_books c _ h1 h2 fun _ => .inl (by rw [hu.state, hd]; rfl))
  exact .ite (fun _ => hmove (.refl w) (by decide) (by decide)) fun _ =>
    .ite (fun _ => .ite (fun _ => hmove (.refl w) (by decide) (by decide)) fun _ =>
      hmove (stays_raises w _ _) (by decide) (by decide)) fun _ => (Stays.refl w).books c

theorem stageRunning_books (c : Ctx) (w : Work) (hd : w.bay.defrost.state = .running) : Books c w (w.stageRunning c) :=
  .ite (fun _ => defrostEnds_books c w) fun _ =>
    .ite (fun _ => moveTo_books c w (by decide) (by decide) fun _ => .inl (by rw [hd]; rfl)) fun _ =>
      (Stays.refl w).books c

theorem defrostStage_books (c : Ctx) (w : Work) : Books c w (w.defrostStage c) := by
  have hice : Stays w w.countIce := ⟨rfl, rfl, rfl, rfl, rfl⟩
  refine .before hice ?_
  unfold Work.defrostStage
  generalize w.countIce = u
  simp only []
  split
  · exact .ite (fun _ => unordered_books c u) fun _ =>
      .ite (fun _ => demand_books c u) fun _ => (Stays.refl u).books c
  · exact .ite (fun _ => unordered_books c u) fun _ => (Stays.refl u).books c
  · rename_i hd
    exact .ite (fun _ => .ite (fun _ => stageLateStart_books c u hd) fun _ => unordered_books c u) fun _ =>
      reroute_books c u hd
  · rename_i hd
    exact stageOrdered_books c u hd
  · rename_i hd
    exact stageRunning_books c u hd
  · exact .ite (fun _ => defrostEnds_books c u) fun _ => (Stays.refl u).books c
  · exact .ite (fun _ => defrostEnds_books c u) fun _ => (Stays.refl u).books c

/-! ## Expiries and commands -/

theorem expires_books (c : Ctx) (t : BayTimer) (w : Work) : Books c w (w.expires c t) := by
  cases t with
  | silence =>
    have h0 : Stays w { w with bay := { w.bay with silent := true, silentSince := c.now } } := ⟨rfl, rfl, rfl, rfl, rfl⟩
    exact ((h0.trans (stays_setTimer _ _ _)).trans (stays_raises _ _ _)).books c
  | door =>
    have h0 : Stays w (w.setDoor .openLong) := ⟨rfl, rfl, rfl, rfl, rfl⟩
    exact ((h0.trans (stays_setTimer _ _ _)).trans (stays_raises _ _ _)).books c
  | defrost =>
    simp only [Work.expires]
    split
    · unfold Work.startWindowExpires
      simp only []
      refine .ite (fun _ => .before ⟨rfl, rfl, rfl, rfl, rfl⟩ (enterDue_books c _)) fun _ => ?_
      exact .before ⟨rfl, rfl, rfl, rfl, rfl⟩
        (moveTo_books c _ (by decide) (by decide) (by simp [DefrostState.granted]))
    · rename_i hd
      exact .after (moveTo_books c w (by decide) (by decide) fun _ => .inl (by rw [hd]; rfl)) (stays_raises _ _ _)
    · exact .before (stays_raises w _ _) (moveTo_books c _ (by decide) (by decide) (by simp [DefrostState.granted]))
    · exact moveTo_books c w (by decide) (by decide) (by simp [DefrostState.granted])
    all_goals exact (Stays.refl w).books c

theorem cancel_books (c : Ctx) (w : Work) : Books c w (w.cancel c) := by
  have h1 : Stays w (w.defrost { w.bay.defrost with lastEnd := some c.now }) := ⟨rfl, rfl, rfl, rfl, rfl⟩
  have hmove : ∀ {new : DefrostState}, new ≠ .due → new ≠ .ordered →
      (new.granted = true → w.bay.defrost.state.granted = true) →
      Books c w ((w.defrost { w.bay.defrost with lastEnd := some c.now }).moveTo c.params new) := fun h2 h3 h4 =>
    .before h1 (moveTo_books c _ h2 h3 fun hn => .inl (h4 hn))
  unfold Work.cancel
  simp only []
  split
  · exact hmove (by decide) (by decide) (by simp [DefrostState.granted])
  · rename_i hd
    exact .ite (fun _ => hmove (by decide) (by decide) (by simp [DefrostState.granted])) fun _ =>
      hmove (by decide) (by decide) fun _ => by rw [hd]; rfl
  · rename_i hd
    exact hmove (by decide) (by decide) fun _ => by rw [hd]; rfl
  · exact (h1.trans (stays_pendOrder _ _ _)).books c
  all_goals exact (Stays.refl w).books c

theorem judgeLoading_stays (c : Ctx) (w : Work) : Stays w (w.judgeLoading c) := by
  have hdoor : ∀ x, Stays w (w.setDoor x) := fun _ => ⟨rfl, rfl, rfl, rfl, rfl⟩
  unfold Work.judgeLoading
  simp only []
  split
  · exact .refl w
  · exact .ite (((hdoor _).trans (stays_setTimer _ _ _)).trans (stays_raises _ _ _)) (stays_setTimer w _ _)
  · exact .ite ((hdoor _).trans (stays_setTimer _ _ _)) (.refl w)

theorem setLoading_stays (c : Ctx) (on : Bool) (w : Work) : Stays w (w.setLoading c on) :=
  .ite (.refl w) (.trans (w' := { w with bay := { w.bay with loading := on } }) ⟨rfl, rfl, rfl, rfl, rfl⟩
    (judgeLoading_stays c _))

theorem fuelStage_stays (w : Work) : Stays w w.fuelStage := by
  unfold Work.fuelStage
  split
  · unfold Work.fuelStageDiesel
    simp only []
    split <;> exact ⟨rfl, rfl, rfl, rfl, rfl⟩
  · exact .refl w

theorem doorStage_stays (found : DefrostState) (w : Work) : Stays w (w.doorStage found) := by
  have hdoor : ∀ x, Stays w (w.setDoor x) := fun _ => ⟨rfl, rfl, rfl, rfl, rfl⟩
  have hopens : Stays w w.doorOpens := ⟨rfl, rfl, rfl, rfl, rfl⟩
  refine .ite ?_ ?_
  · have hopen : Stays w (if w.bay.door.state = .closed then w.doorOpens else w) := .ite hopens (.refl w)
    exact .ite (hopen.trans (stays_raises _ _ _)) hopen
  · unfold Work.doorSeenShut
    split
    · exact .refl w
    · exact (hdoor _).trans (stays_setTimer _ _ _)
    · exact (hdoor _).trans (stays_raises _ _ _)

/-- The reports of an update: what accounts for the bay's place, after at most a report that it may be eligible (R75). -/
structure Booked (room : Bool) (e : BayEntry) (w : Work) : Prop where
  books : ∃ pre rs, w.reports = pre ++ rs ∧ (∀ r ∈ pre, ∃ f, r = .mayBeEligible f)
    ∧ Ledger room e.feeder e.place rs w.bay.place

/-- An update that begins with no report is booked by what its change reports. -/
theorem Books.booked {c : Ctx} {w w' : Work} (h : Books c w w') (h0 : w.reports = []) : Booked c.room w.bay w' := by
  obtain ⟨rs, hr, hl⟩ := h
  exact ⟨[], rs, by rw [hr, h0], by simp, hl⟩

/-- The store stage keeps the bay's place and reports at most that it may be eligible. -/
theorem storeStage_reports (c : Ctx) (h : HandedFrame) (w : Work) :
    (∃ pre, (w.storeStage c h).reports = w.reports ++ pre ∧ ∀ r ∈ pre, ∃ f, r = .mayBeEligible f)
      ∧ (w.storeStage c h).bay.place = w.bay.place ∧ (w.storeStage c h).bay.feeder = w.bay.feeder := by
  unfold Work.storeStage Work.resume
  simp only []
  split
  · exact ⟨⟨[.mayBeEligible w.bay.feeder], rfl, fun r hr => ⟨_, List.mem_singleton.1 hr⟩⟩, rfl, rfl⟩
  · exact ⟨⟨[], (List.append_nil _).symm, fun _ hr => by cases hr⟩, rfl, rfl⟩

theorem evaluate_booked (c : Ctx) (h : HandedFrame) {w : Work} (h0 : w.reports = []) :
    Booked c.room w.bay (w.evaluate c h) := by
  obtain ⟨⟨pre, hpre, hmay⟩, hplace, hfeeder⟩ := storeStage_reports c h w
  obtain ⟨rs, hr, hl⟩ : Books c (w.storeStage c h) (w.evaluate c h) :=
    .before (fuelStage_stays _) (.after (defrostStage_books c _) (doorStage_stays _ _))
  rw [hpre, h0, List.nil_append] at hr
  rw [hplace, hfeeder] at hl
  exact ⟨pre, rs, hr, hmay, hl⟩

theorem giveUp_spec (w : Work) : w.giveUp.reports = w.reports ++ w.bay.place.leaves := by
  unfold Work.giveUp
  rw [(stays_withdrawOrder _).reports]
  have hrel : ∀ {d : DefrostState}, w.bay.defrost.state = d → d.granted = true →
      w.release.reports = w.reports ++ w.bay.place.leaves := fun hd hg => by
    rw [(release_spec w).1]
    congr 1
    subst hd
    cases hs : w.bay.defrost.state <;> simp only [hs, DefrostState.granted, Bool.false_eq_true] at hg <;>
      cases hgf : w.bay.defrost.grantFeeder <;> simp [BayEntry.place, hs, hgf, Place.leaves]
  split
  · rename_i hd; exact hrel hd rfl
  · rename_i hd; exact hrel hd rfl
  · rename_i hd; exact hrel hd rfl
  · rename_i hd
    split
    · rename_i hq; simp [BayEntry.place, hd, hq, Place.leaves, Work.report]
    · rename_i hq; simp [BayEntry.place, hd, hq, Place.leaves]
  · rename_i hd; simp [BayEntry.place, hd, Place.leaves, Work.report]
  · rename_i hd; simp [BayEntry.place, hd, Place.leaves]
  · rename_i hd; simp [BayEntry.place, hd, Place.leaves]

/-- An UNMAP_TAG leaves the bay's place for none (R77). -/
theorem unmapTag_booked (room : Bool) {w : Work} (h0 : w.reports = []) : Booked room w.bay w.unmapTag :=
  have hr : w.unmapTag.reports = [] ++ (w.bay.place.leaves ++ []) := by
    show w.giveUp.reports = _
    rw [giveUp_spec, h0, List.append_nil]
  ⟨[], _, hr, by simp, .moves _ .nowhere⟩

/-- The copied link state is no part of what places a bay. -/
theorem startWork_place (b : BayNo) (s : State) :
    (startWork b s).bay.place = (s.bay b).place ∧ (startWork b s).bay.feeder = (s.bay b).feeder := ⟨rfl, rfl⟩

/-- Every update that begins at a bay as it stands is booked. -/
theorem Begun.booked {s : State} {b : BayNo} {w : Work} (h : Begun s b w) : Booked (s.ctx b).room (s.bay b) w := by
  have start : ∀ {w'}, Books (s.ctx b) (startWork b s) w' → Booked (s.ctx b).room (s.bay b) w' := fun h => ⟨(h.booked rfl).books⟩
  have nowhere : (s.bay b).defrost.state.forcible = true → (s.bay b).place = .nowhere := fun hf => by
    cases hs : (s.bay b).defrost.state <;> simp only [hs, DefrostState.forcible, Bool.false_eq_true] at hf <;>
      simp [BayEntry.place, hs]
  cases h with
  | expiry t => exact start (expires_books _ t _)
  | revocation => exact start ((Stays.refl _).books _)
  | frame h => exact ⟨(evaluate_booked _ h (w := startWork b s) rfl).books⟩
  | loading on => exact start ((setLoading_stays _ on _).books _)
  | forced => exact start (demand_books _ _)
  | cancelled => exact start (cancel_books _ _)
  | assigned f _ forcible =>
    refine ⟨[], [], rfl, by simp, ?_⟩
    have hold := nowhere forcible
    have hnew : ({ (startWork b s).bay with feeder := f } : BayEntry).place = .nowhere := by
      cases hs : (s.bay b).defrost.state <;> simp only [hs, DefrostState.forcible, Bool.false_eq_true] at forcible <;>
        simp [BayEntry.place, startWork, Work.start, hs]
    rw [hold]
    show Ledger _ _ _ _ ({ (startWork b s).bay with feeder := f } : BayEntry).place
    rw [hnew]
    exact .stays _

/-! ## The reports in the order of R110 -/

/-- The reports of an update are applied in the order in which they were made, but that the bay may be eligible comes last. -/
theorem inReportOrder_ledger {room : Bool} {home : FeederNo} {p q : Place} {pre rs : List Report}
    (hmay : ∀ r ∈ pre, ∃ f, r = .mayBeEligible f) (h : Ledger room home p rs q) :
    inReportOrder (pre ++ rs) = rs ++ pre := by
  have hpre : ∀ k, pre.filter (fun r => r.rank == k) = if k = 5 then pre else [] := fun k => by
    split
    · rename_i hk
      refine List.filter_eq_self.2 fun r hr => ?_
      obtain ⟨f, rfl⟩ := hmay r hr
      simp [Report.rank, hk]
    · rename_i hk
      refine List.filter_eq_nil_iff.2 fun r hr => ?_
      obtain ⟨f, rfl⟩ := hmay r hr
      simpa [Report.rank] using fun he => hk he.symm
  simp only [inReportOrder, List.filter_append, hpre]
  cases h with
  | stays => simp
  | direct => simp [Report.rank]
  | moves joins => cases p <;> cases joins <;> simp [Report.rank, Place.leaves]

theorem setFeeder_self (s : State) (f : FeederNo) : s.setFeeder f (s.feeder f) = s := by
  simp [State.setFeeder, State.feeder]

/-- What accounts for the bay's place is all that the reports change in the Feeder Table. -/
theorem Booked.opened {room : Bool} {e : BayEntry} {w : Work} (h : Booked room e w) (b : BayNo) (full : Bool) (s : State) :
    ∃ rs, Ledger room e.feeder e.place rs w.bay.place
      ∧ opened b w full s = rs.foldl (applyReport b) (commitCore b w full s) := by
  obtain ⟨pre, rs, hr, hmay, hl⟩ := h.books
  refine ⟨rs, hl, ?_⟩
  unfold Machine.opened
  rw [hr, inReportOrder_ledger hmay hl, List.foldl_append]
  generalize rs.foldl (applyReport b) (commitCore b w full s) = u
  clear hr hl
  induction pre with
  | nil => rfl
  | cons r rest ih =>
    obtain ⟨f, rfl⟩ := hmay _ List.mem_cons_self
    have hid : applyReport b u (.mayBeEligible f) = u := setFeeder_self u f
    rw [List.foldl_cons, hid]
    exact ih fun r hr => hmay r (List.mem_cons_of_mem _ hr)

end Sys2Proof.Machine

/-! PROOFS. R105, R108: a feeder that is not ACTIVE has no grant, and no grant list and no capacity exceeds 8. -/

namespace Sys2Proof.Machine

/-- What `FeederLaw` asks of one feeder. -/
structure Feeder.Lawful (x : Feeder) : Prop where
  inactive : x.state ≠ .active → x.grants = []
  grants : x.grants.length ≤ 8
  capacity : x.capacity ≤ 8

theorem feederLaw_iff (s : State) : FeederLaw s ↔ ∀ f, (s.feeder f).Lawful :=
  ⟨fun h f => ⟨(h f).1, (h f).2.1, (h f).2.2⟩, fun h f => ⟨(h f).inactive, (h f).grants, (h f).capacity⟩⟩

theorem FeederLaw.of_feeders {s t : State} (hs : FeederLaw s) (h : t.feeders = s.feeders) : FeederLaw t := by
  have hf : ∀ f, t.feeder f = s.feeder f := fun f => by simp only [State.feeder, h]
  intro f
  rw [hf]
  exact hs f

theorem FeederLaw.set {s : State} (hs : FeederLaw s) (f : FeederNo) {x : Feeder} (hx : x.Lawful) :
    FeederLaw (s.setFeeder f x) := by
  rw [feederLaw_iff] at *
  intro g
  rw [setFeeder_feeder]
  split
  · exact hx
  · exact hs g

/-- A feeder with room takes one more grant and stays within its bounds (R108, R112). -/
theorem Feeder.Lawful.addGrant {x : Feeder} (h : x.Lawful) (b : BayNo) (hroom : x.canGrant = true) :
    ((x.unqueue b).addGrant b).Lawful := by
  simp only [Feeder.canGrant, Bool.and_eq_true, beq_iff_eq, decide_eq_true_eq] at hroom
  obtain ⟨hactive, hload⟩ := hroom
  unfold Feeder.load at hload
  refine ⟨fun hs => absurd hactive hs, ?_, h.capacity⟩
  have hcap := h.capacity
  simp only [Feeder.addGrant, Feeder.unqueue, List.length_append, List.length_singleton]
  omega

/-- No report but the direct grant adds a grant. -/
theorem Feeder.Lawful.change {x : Feeder} (h : x.Lawful) (b : BayNo) {r : Report} (hr : ∀ f, r ≠ .directGrant f) :
    (r.change b x).Lawful := by
  cases r with
  | directGrant f => exact absurd rfl (hr f)
  | release f =>
    refine ⟨fun hs => ?_, (List.length_filter_le _ _).trans h.grants, h.capacity⟩
    simp [Report.change, h.inactive hs]
  | leaveQueue | selfLeave | selfJoin | joinQueue | mayBeEligible => exact ⟨h.inactive, h.grants, h.capacity⟩

theorem applyReports_feederLaw (b : BayNo) {rs : List Report} (hrs : ∀ r ∈ rs, ∀ f, r ≠ .directGrant f) {s : State}
    (hs : FeederLaw s) : FeederLaw (rs.foldl (applyReport b) s) := by
  induction rs generalizing s with
  | nil => exact hs
  | cons r rest ih =>
    have hr := ((feederLaw_iff s).1 hs r.feeder).change b (hrs r List.mem_cons_self)
    exact ih (fun r hr => hrs r (List.mem_cons_of_mem _ hr)) (hs.set r.feeder hr)

/-- The reports of an update keep the bounds: a direct grant is made where the feeder has room. -/
theorem Ledger.feederLaw {room : Bool} {home : FeederNo} {p q : Place} {rs : List Report}
    (h : Ledger room home p rs q) (b : BayNo) {s : State} (hroom : room = true → (s.feeder home).canGrant = true)
    (hs : FeederLaw s) : FeederLaw (rs.foldl (applyReport b) s) := by
  cases h with
  | stays => exact hs
  | direct able => exact hs.set home (((feederLaw_iff s).1 hs home).addGrant b (hroom able))
  | moves joins =>
    refine applyReports_feederLaw b (fun r hr f => ?_) hs
    rintro rfl
    rcases List.mem_append.1 hr with hr | hr
    · cases p <;> simp [Place.leaves] at hr
    · cases joins <;> simp at hr

theorem Booked.feederLaw {room : Bool} {e : BayEntry} {w : Work} (h : Booked room e w) (b : BayNo) (full : Bool)
    {s : State} (hroom : room = true → (s.feeder e.feeder).canGrant = true) (hs : FeederLaw s) :
    FeederLaw (Machine.opened b w full s) := by
  obtain ⟨rs, hl, ho⟩ := Booked.opened h b full s
  rw [ho]
  exact hl.feederLaw b hroom (hs.of_feeders rfl)

theorem linkMap_feeders (a : RadioAddr) (b : BayNo) (s : State) : (linkMap a b s).feeders = s.feeders := by
  unfold linkMap
  split <;> rfl

theorem fetchJudge_feeders (s : State) : (fetchJudge s).feeders = s.feeders := by
  unfold fetchJudge
  split
  · rfl
  · split <;> rfl

theorem Deed.feederLaw {lawful : Prop} {s t : State} (h : Deed lawful s t) (hs : FeederLaw s) : FeederLaw t := by
  cases h with
  | opens b w full _ _ _ work => exact work.booked.feederLaw b full id hs
  | maps a b k => exact hs.of_feeders ((commitCore_feeders b (mapWork a b k (linkMap a b s)) true _).trans (linkMap_feeders a b s))
  | unmaps a b =>
    exact (unmapTag_booked false (w := startWork b (linkUnmap a b s)) rfl).feederLaw b true (by simp)
      (hs.of_feeders rfl)
  | grants f b _ room =>
    rw [feederLaw_iff] at *
    intro g
    rw [grant_feeder]
    split
    · exact (hs f).addGrant b room
    · exact hs g
  | finishes r => rw [finish_eq]; exact hs
  | fetches => exact hs.of_feeders (fetchJudge_feeders s)
  | progresses | lists | hands | counts | wants => exact hs

theorem Deeds.feederLaw {lawful : Prop} {s t : State} (h : Deeds lawful s t) (hs : FeederLaw s) : FeederLaw t :=
  h.keeps (fun _ _ hd => hd.feederLaw) hs

theorem Configured.feederLaw {s u : State} (h : Configured s u) (hs : FeederLaw s) : FeederLaw u := by
  rw [feederLaw_iff] at *
  intro f
  have hcap := h.capacity f
  obtain ⟨hi, hg, hc⟩ := hs f
  rw [h.feeder f]
  exact ⟨hi, hg, hcap.trans (by simp [hc])⟩

theorem takeCommand_feeders (cmd : Command) (s : State) : (s.takeCommand cmd).feeders = s.feeders := by
  simp only [State.takeCommand, State.leaveDone]
  split <;> rfl

theorem takeAndRun_feederLaw (code : Word) {s : State} (hs : FeederLaw s) : FeederLaw (takeAndRun code s) := by
  obtain ⟨u, hu, hrun⟩ := takeAndRun_deeds (lawful := False) code s
  exact hrun.feederLaw (hu.feederLaw (hs.of_feeders (takeCommand_feeders _ s)))

theorem Answer.feederLaw {r : Request} {s t : State} (h : Answer r s t) (hs : FeederLaw s) : FeederLaw t := by
  cases h with
  | delays =>
    refine hs.of_feeders ?_
    simp only [complete_feeders, State.addEntry]
    split <;> rfl
  | acknowledges =>
    refine hs.of_feeders ?_
    simp only [pass_feeders, acknowledge]
    split <;> rfl
  | commands code => exact FeederLaw.of_feeders (takeAndRun_feederLaw code hs) rfl
  | completes | queues | delivers | passes | locks | sets | consumes => exact hs

theorem finishRequest_feeders (r : Request) (data : List Word) (s : State) (p : Path) :
    (finishRequest r data s p).feeders = s.feeders := by
  cases p with
  | plain | commandWord | consumerIndex | settings b => rfl
  | argument x => cases x <;> rfl
  | bayRead b overtaken =>
    simp only [finishRequest, rejudgeRead, State.addEntry]
    split_ifs <;> rfl

theorem raiseFeeder_feeders (f : FeederNo) (c : Condition) (s : State) : (raiseFeeder f c s).feeders = s.feeders := by
  unfold raiseFeeder
  split <;> rfl

theorem becomeActive_feederLaw (f : FeederNo) {s : State} (hs : FeederLaw s) : FeederLaw (becomeActive f s) := by
  refine (act_deeds (lawful := False) f _).feederLaw (FeederLaw.of_feeders (hs.set f ?_) (raiseFeeder_feeders f _ _))
  obtain ⟨-, hg, hc⟩ := (feederLaw_iff s).1 hs f
  exact ⟨fun h => absurd rfl h, hg, hc⟩

theorem foldl_feederLaw {α : Type} {g : State → α → State} (h : ∀ s a, FeederLaw s → FeederLaw (g s a)) (l : List α)
    {s : State} (hs : FeederLaw s) : FeederLaw (l.foldl g s) := by
  induction l generalizing s with
  | nil => exact hs
  | cons a rest ih => exact ih (h s a hs)

theorem tripFeeder_feederLaw (f : FeederNo) {s : State} (hs : FeederLaw s) : FeederLaw (tripFeeder f s) := by
  simp only [tripFeeder]
  refine foldl_feederLaw (fun u b hu => (offerHeld_deeds (lawful := False) b (by decide) u).feederLaw hu) _ ?_
  refine FeederLaw.of_feeders (FeederLaw.set ?_ f ?_) (raiseFeeder_feeders f _ _)
  · exact foldl_feederLaw (g := revokeOne f) (fun u b hu => hu.of_feeders rfl) _ hs
  · exact ⟨fun _ => rfl, Nat.zero_le _, ((feederLaw_iff s).1 hs f).capacity⟩

theorem takeEntry_feederLaw (e : InboxEntry) {s : State} (hs : FeederLaw s) : FeederLaw (takeEntry e s) := by
  obtain ⟨u, hu, ht⟩ := takeEntry_handsOn e s
  have hlaw : FeederLaw u := by
    rw [hu.rest]
    exact hs
  rcases ht with ht | ⟨h, ht⟩ <;> rw [ht]
  · exact hlaw
  · exact (handOn_deeds (lawful := False) h u).feederLaw hlaw

theorem yardTick_feederLaw {s : State} (hs : FeederLaw s) : FeederLaw (yardTick s) := by
  rw [feederLaw_iff] at *
  intro f
  have hf : (yardTick s).feeder f = s.feeder f ∨ (yardTick s).feeder f = (s.feeder f).tick := by
    unfold yardTick counterRewrite tickTimers
    split_ifs <;> simp [State.feeder, State.wantRewrite, tickClock, passPeriods]
  obtain ⟨hi, hg, hc⟩ := hs f
  rcases hf with hf | hf <;> rw [hf]
  · exact ⟨hi, hg, hc⟩
  · exact ⟨hi, hg, hc⟩

theorem blank_feeder (p : List Instr) (pins : Pins) (m : Memory) (n : Nat) (f : FeederNo) :
    (State.blank p pins m n).feeder f = Feeder.reset pins.feederOk[f] := by
  simp [State.feeder, State.blank]

theorem blank_feederLaw (p : List Instr) (pins : Pins) (m : Memory) (n : Nat) : FeederLaw (State.blank p pins m n) := by
  rw [feederLaw_iff]
  intro f
  rw [blank_feeder]
  exact ⟨fun _ => rfl, Nat.zero_le _, show 2 ≤ 8 by decide⟩

theorem Change.feederLaw {s t : State} (h : Change s t) (hs : FeederLaw s) : FeederLaw t := by
  cases h with
  | queue | line | counts | clearsAnswer | grantsPort | reclaims | passes | noticeEnds | resultEnds | firstBurstEnds =>
    exact hs
  | resetFalls => exact blank_feederLaw _ _ _ _
  | resetReleases memsize =>
    exact (blank_feederLaw s.pending { s.pins with resetN := true, memsize := memsize, attnN := true } s.mem
      s.freeUsed).of_feeders rfl
  | claims x => exact hs.of_feeders (by cases x <;> rfl)
  | presents => rw [statusSettle_eq]; exact hs
  | haltCompletes => exact hs.of_feeders (by unfold completeHalt; rw [finish_eq]; rfl)
  | unlocks l => exact (unlocked_deeds (lawful := False) (fun hl => hl.elim)).feederLaw hs
  | answers r => exact (answer_cases r s).feederLaw hs
  | requestEnds o => exact hs.of_feeders (finishRequest_feeders _ _ _ _)
  | updateEnds x => exact (endUpdate_deeds (lawful := False) (fun hl => hl.elim)).feederLaw hs
  | blockEnds n =>
    refine hs.of_feeders ?_
    unfold State.presentPending State.afterBlock
    split_ifs <;> rfl
  | fetchEnds x =>
    refine hs.of_feeders ?_
    simp only [finishFetch]
    rw [fetchJudge_feeders]
    split <;> rfl
  | takes e rest => exact takeEntry_feederLaw e (hs.of_feeders rfl)
  | expires b x => exact (offerHeld_deeds (lawful := False) b (by simp) _).feederLaw hs
  | activates f => exact becomeActive_feederLaw f hs
  | restores f _ tripped =>
    obtain ⟨hi, hg, hc⟩ := (feederLaw_iff s).1 hs f
    exact hs.set f ⟨fun _ => hi (by simp [tripped]), hg, hc⟩
  | trips f => exact tripFeeder_feederLaw f hs
  | ticks => exact yardTick_feederLaw hs

/-- Settles O57: each change of a step keeps the bounds (`Change.bounded`), the quiet of PASS (`Change.passQuiet`) and the
law of the feeders (`Change.feederLaw`). -/
theorem tablesStayBounded : Obligations.TablesStayBounded := by
  unfold Obligations.TablesStayBounded
  exact ⟨fun s t hb hq h => ⟨step_tablesBounded hb h, step_passQuiet hq h⟩,
    fun s t hs h => step_keeps (fun _ _ hc => hc.feederLaw) hs h⟩

end Sys2Proof.Machine

/-! PROOFS. R66, R67, R70, R71, R178: the lock, the updates in flight and the waiting events stay in step. -/

namespace Sys2Proof.Machine

/-! ## What an update leaves of a bay's lists of events -/

/-- The lists of events of an entry, up to expiries marked stale. -/
structure Lists (e e' : BayEntry) : Prop where
  waiting : Marked e.waiting e'.waiting
  held : Marked e.held e'.held
  deferred : e'.deferred = e.deferred

theorem Lists.refl (e : BayEntry) : Lists e e := ⟨.refl _, .refl _, rfl⟩

theorem Lists.trans {e e' e'' : BayEntry} (h : Lists e e') (h' : Lists e' e'') : Lists e e'' :=
  ⟨h.waiting.trans h'.waiting, h.held.trans h'.held, h'.deferred.trans h.deferred⟩

theorem Steady.lists {e e' : BayEntry} (h : Steady e e') : Lists e e' := ⟨h.waiting, h.held, h.deferred⟩

theorem lists_stopTimers (e : BayEntry) : Lists e e.stopTimers :=
  (((steady_setTimer e .silence .stopped).trans (steady_setTimer _ .defrost .stopped)).trans
    (steady_setTimer _ .door .stopped)).lists

/-- What begins an update reworks the entry, or is an ASSIGN_FEEDER (R122). -/
theorem Begun.reworks {s : State} {b : BayNo} {w : Work} (h : Begun s b w) :
    Reworks (startWork b s) w
      ∨ ∃ f, (s.bay b).defrost.state.forcible = true ∧ (s.bay b).occupied = true
          ∧ w = { startWork b s with bay := { (startWork b s).bay with feeder := f } } := by
  cases h with
  | expiry t => exact .inl (reworks_expires _ t _)
  | revocation => exact .inl (.refl _)
  | frame x _ => exact .inl (reworks_evaluate _ x _)
  | loading on _ => exact .inl (reworks_setLoading _ on _)
  | forced _ _ => exact .inl (reworks_demand _ _)
  | cancelled _ _ => exact .inl (reworks_cancel _ _)
  | assigned f occupied forcible => exact .inr ⟨f, forcible, occupied, rfl⟩

/-- The copied link state is in none of the lists. -/
theorem startWork_lists {s : State} {b : BayNo} {e : BayEntry} (h : Lists (startWork b s).bay e) : Lists (s.bay b) e :=
  ⟨h.waiting, h.held, h.deferred⟩

theorem Reworks.lists {s : State} {b : BayNo} {w : Work} (h : Reworks (startWork b s) w) : Lists (s.bay b) w.bay :=
  startWork_lists h.steady.lists

theorem Begun.lists {s : State} {b : BayNo} {w : Work} (h : Begun s b w) : Lists (s.bay b) w.bay := by
  rcases h.reworks with h | ⟨f, -, -, rfl⟩
  · exact h.lists
  · exact ⟨.refl _, .refl _, rfl⟩

theorem mapWork_lists (a : RadioAddr) (b : BayNo) (k : UnitKind) (s : State) : Lists (s.bay b) (mapWork a b k s).bay :=
  have h := lists_stopTimers (startWork b s).bay
  ⟨h.waiting.trans (marked_markStale _ _), h.held.trans (marked_markStale _ _), h.deferred⟩

theorem unmapTag_lists (w : Work) : Lists w.bay w.unmapTag.bay :=
  have h := (reworks_giveUp w).steady.lists.trans (lists_stopTimers w.giveUp.bay)
  ⟨h.waiting, h.held, h.deferred⟩

theorem grantWork_lists (f : FeederNo) (b : BayNo) (s : State) : Lists (s.bay b) (grantWork f b s).bay :=
  (reworks_granted s.params f (startWork b s)).lists

/-! ## What the beginning of updates leaves of the lists and of the lock -/

/-- Updates may have begun at unlocked bays; the lists of events and the lock are as they were. -/
structure Grows (s t : State) : Prop where
  lists : ∀ b, Lists (s.bay b) (t.bay b)
  busy : ∀ b, (s.bay b).inFlight = true → (t.bay b).inFlight = true
  fresh : ∀ b, (t.bay b).inFlight = true → (s.bay b).inFlight = true ∨ s.locked b = false
  lock : t.access.lock.map BayLock.bay = s.access.lock.map BayLock.bay

theorem locked_eq (s : State) (b : BayNo) : s.locked b = (s.access.lock.map BayLock.bay).any (· == b) := by
  simp only [State.locked, Option.any_map]

theorem Grows.locked {s t : State} (h : Grows s t) (b : BayNo) : t.locked b = s.locked b := by
  rw [locked_eq, locked_eq, h.lock]

theorem Grows.refl (s : State) : Grows s s := ⟨fun _ => .refl _, fun _ h => h, fun _ h => .inl h, rfl⟩

theorem Grows.trans {s t u : State} (h : Grows s t) (h' : Grows t u) : Grows s u where
  lists b := (h.lists b).trans (h'.lists b)
  busy b hb := h'.busy b (h.busy b hb)
  fresh b hb := (h'.fresh b hb).elim (h.fresh b) fun hl => .inr (by rw [← h.locked]; exact hl)
  lock := h'.lock.trans h.lock

/-- A state that differs in neither the bays nor the lock. -/
theorem Grows.of_same {s t : State} (hb : t.bays = s.bays) (hl : t.access.lock = s.access.lock) : Grows s t := by
  have hbay : ∀ b, t.bay b = s.bay b := fun b => by simp only [State.bay, hb]
  exact ⟨fun b => by rw [hbay]; exact .refl _, fun b h => by rwa [hbay], fun b h => .inl (by rwa [← hbay]), by rw [hl]⟩

theorem Grows.before {s t u : State} (hb : t.bays = s.bays) (hl : t.access.lock = s.access.lock) (h : Grows t u) : Grows s u :=
  (Grows.of_same hb hl).trans h

theorem Grows.after {s t u : State} (h : Grows s t) (hb : u.bays = t.bays) (hl : u.access.lock = t.access.lock) : Grows s u :=
  h.trans (.of_same hb hl)

/-- A bay's entry is changed but for its lists and its update in flight. -/
theorem setBay_grows {s : State} {b : BayNo} {e : BayEntry} (hl : Lists (s.bay b) e) (hf : e.inFlight = (s.bay b).inFlight) :
    Grows s (s.setBay b e) where
  lists x := by
    rw [setBay_bay]
    split
    · rename_i h
      exact h ▸ hl
    · exact .refl _
  busy x h := by
    rw [setBay_bay]
    split
    · rename_i hx
      exact hf.trans (hx ▸ h)
    · exact h
  fresh x h := by
    rw [setBay_bay] at h
    split at h
    · rename_i hx
      exact .inl (hx ▸ hf ▸ h)
    · exact .inl h
  lock := rfl

theorem commitCore_grows {b : BayNo} {w : Work} (full : Bool) {s : State} (hw : Lists (s.bay b) w.bay)
    (unl : s.locked b = false) : Grows s (commitCore b w full s) where
  lists x := by
    rw [commitCore_bay]
    split
    · rename_i h
      subst h
      exact ⟨hw.waiting, hw.held, hw.deferred⟩
    · exact .refl _
  busy x h := by
    rw [commitCore_bay]
    split
    · rfl
    · exact h
  fresh x h := by
    rw [commitCore_bay] at h
    split at h
    · rename_i hx
      exact .inr (hx ▸ unl)
    · exact .inl h
  lock := rfl

theorem applyReports_bays (b : BayNo) (rs : List Report) (s : State) : (rs.foldl (applyReport b) s).bays = s.bays := by
  rw [applyReports_frame]

theorem applyReports_access (b : BayNo) (rs : List Report) (s : State) : (rs.foldl (applyReport b) s).access = s.access := by
  rw [applyReports_frame]

theorem opened_grows {b : BayNo} {w : Work} (full : Bool) {s : State} (hw : Lists (s.bay b) w.bay)
    (unl : s.locked b = false) : Grows s (opened b w full s) :=
  (commitCore_grows full hw unl).after (applyReports_bays _ _ _) (by unfold opened; rw [applyReports_access])

theorem grant_grows (f : FeederNo) (b : BayNo) {s : State} (able : eligible s b = true) : Grows s (grant f b s) := by
  refine .before (t := s.setFeeder f (((s.feeder f).unqueue b).addGrant b)) rfl rfl ?_
  exact commitCore_grows false (grantWork_lists f b _) (eligible_free able).2

theorem grantPass_grows (f : FeederNo) (q : List (BayNo × Time)) (s : State) : Grows s (grantPass f q s) := by
  induction q generalizing s with
  | nil => exact .refl s
  | cons x rest ih =>
    unfold grantPass
    split
    · rename_i hc
      exact (grant_grows f x.1 (Bool.and_eq_true_iff.1 hc).2).trans (ih _)
    · exact ih s

theorem foldl_grows {α : Type} {g : State → α → State} (h : ∀ s a, Grows s (g s a)) (l : List α) (s : State) :
    Grows s (l.foldl g s) := by
  induction l generalizing s with
  | nil => exact .refl s
  | cons a rest ih => exact (h s a).trans (ih _)

theorem act_grows (f : FeederNo) (s : State) : Grows s (act f s) := grantPass_grows f _ s

theorem commit_grows {b : BayNo} {w : Work} (full : Bool) {s : State} (hw : Lists (s.bay b) w.bay)
    (unl : s.locked b = false) : Grows s (commit b w full s) := by
  rw [commit_eq]
  exact (opened_grows full hw unl).trans (foldl_grows (fun u f => act_grows f u) _ _)

theorem fetchJudge_grows (s : State) : Grows s (fetchJudge s) := by
  unfold fetchJudge
  split
  · exact .refl s
  · split
    · exact .of_same rfl rfl
    · exact .refl s

theorem finish_grows (s : State) (r : Result) : Grows s (s.finish r) := by
  rw [finish_eq]
  exact .of_same rfl rfl

theorem finishUpdating_grows (b : BayNo) (s : State) : Grows s (finishUpdating b s) := by
  unfold finishUpdating
  split
  · exact finish_grows s _
  · exact .refl s

/-! ## The turn of one event -/

theorem meetFrame_grows (b : BayNo) (h : HandedFrame) {s : State} (unl : s.locked b = false) : Grows s (meetFrame b h s) := by
  unfold meetFrame
  split
  · rename_i hfits
    exact commit_grows false (Begun.frame h hfits).lists unl
  · exact .refl s

theorem beginCommand_grows {b : BayNo} {w : Work} (full : Bool) {s : State} (hw : Lists (s.bay b) w.bay)
    (unl : s.locked b = false) : Grows s (beginCommand b w full s) :=
  .before (t := s.setProgress (.updating b)) rfl rfl (commit_grows full hw unl)

theorem linkMap_bays (a : RadioAddr) (b : BayNo) (s : State) : (linkMap a b s).bays = s.bays := by
  unfold linkMap
  split <;> rfl

theorem linkMap_access (a : RadioAddr) (b : BayNo) (s : State) : (linkMap a b s).access = s.access := by
  unfold linkMap
  split <;> rfl

theorem turnCommand_grows {b : BayNo} {s : State} (unl : s.locked b = false) : Grows s (turnCommand b s) := by
  unfold turnCommand
  split
  · exact .refl s
  · rename_i cmd _
    split
    · unfold turnMapTag
      simp only []
      split
      · exact finish_grows s _
      · refine .before (t := linkMap (cmd.a.setWidth 10) b s) (linkMap_bays _ b s) (by rw [linkMap_access]) ?_
        exact beginCommand_grows true (mapWork_lists _ b _ _) (by rw [linkMap_locked]; exact unl)
    · unfold turnUnmapTag
      split
      · exact finish_grows s _
      · refine .before (t := linkUnmap (cmd.a.setWidth 10) b s) rfl rfl ?_
        exact beginCommand_grows true (startWork_lists (unmapTag_lists _)) unl
    · unfold turnSetLoading
      split
      · exact finish_grows s _
      · exact beginCommand_grows false (reworks_setLoading _ _ (startWork b s)).lists unl
    · unfold turnForceDefrost
      split
      · exact beginCommand_grows false (reworks_demand _ (startWork b s)).lists unl
      · exact finish_grows s _
    · unfold turnCancelDefrost
      split
      · exact beginCommand_grows false (reworks_cancel _ (startWork b s)).lists unl
      · exact finish_grows s _
    · unfold turnAssignFeeder
      split
      · exact beginCommand_grows false ⟨.refl _, .refl _, rfl⟩ unl
      · exact finish_grows s _
    · exact .refl s

theorem startEvent_grows {b : BayNo} (ev : BayEvent) {s : State} (unl : s.locked b = false) :
    Grows s (startEvent b ev s) := by
  cases ev with
  | expiry t stale =>
    simp only [startEvent]
    split
    · exact .refl s
    · exact commit_grows false (Begun.expiry t).lists unl
  | revocation => exact commit_grows false Begun.revocation.lists unl
  | handOffFrame =>
    simp only [startEvent]
    split
    · exact .before (t := s.clearHandOff) rfl rfl (meetFrame_grows b _ unl)
    · exact .refl s
  | deferredFrame h => exact meetFrame_grows b h unl
  | command => exact turnCommand_grows unl

/-! ## The law, with the bay whose events are at their turn left out -/

/-- `EventsInOrder`, but that events may wait at bay `x` while no update of it is in flight: the Check Engine is turning to
them (R67). -/
def OrderedBut (x : Option BayNo) (s : State) : Prop :=
  LockLaw s ∧ ∀ b, (x ≠ some b → (s.bay b).inFlight = false → (s.bay b).waiting = [])
    ∧ (s.locked b = false → (s.bay b).held = [] ∧ (s.bay b).deferred = none)

theorem eventsInOrder_iff (s : State) : EventsInOrder s ↔ OrderedBut none s := by
  simp [EventsInOrder, OrderedBut]

theorem OrderedBut.weaken {s : State} (h : OrderedBut none s) (x : Option BayNo) : OrderedBut x s :=
  ⟨h.1, fun b => ⟨fun _ => (h.2 b).1 (by simp), (h.2 b).2⟩⟩

/-- Once an update of the bay is in flight, or none of its events is left, the law holds of every bay. -/
theorem OrderedBut.close {s : State} {b : BayNo} (h : OrderedBut (some b) s)
    (hb : (s.bay b).inFlight = false → (s.bay b).waiting = []) : OrderedBut none s := by
  refine ⟨h.1, fun c => ⟨fun _ => ?_, (h.2 c).2⟩⟩
  by_cases hc : b = c
  · exact hc ▸ hb
  · exact (h.2 c).1 (by simpa using hc)

theorem lock_locked {s : State} {l : BayLock} (hl : s.access.lock = some l) : s.locked l.bay = true := by
  simp [State.locked, hl]

theorem locked_lock {s : State} {b : BayNo} (h : s.locked b = true) : ∃ l, s.access.lock = some l ∧ l.bay = b := by
  simpa [State.locked, Option.any_eq_true] using h

theorem OrderedBut.grows {x : Option BayNo} {s t : State} (h : OrderedBut x s) (hg : Grows s t) : OrderedBut x t := by
  obtain ⟨hlock, hbays⟩ := h
  refine ⟨fun l hl => ?_, fun b => ⟨fun hx hf => ?_, fun hu => ?_⟩⟩
  · have hlocked : s.locked l.bay = true := by
      rw [← hg.locked]
      exact lock_locked hl
    obtain ⟨y, hy, hyb⟩ := locked_lock hlocked
    by_contra hf
    rcases hg.fresh l.bay (by simpa using hf) with hs | hs
    · simp [← hyb, hlock y hy] at hs
    · simp [hlocked] at hs
  · refine (hg.lists b).waiting.nil_iff.2 ((hbays b).1 hx ?_)
    by_contra hs
    simp [hg.busy b (by simpa using hs)] at hf
  · obtain ⟨hheld, hdef⟩ := (hbays b).2 (by rw [← hg.locked]; exact hu)
    exact ⟨(hg.lists b).held.nil_iff.2 hheld, (hg.lists b).deferred.trans hdef⟩

/-- The waiting events of a bay are put where they may stand. -/
theorem OrderedBut.setWaiting {x : Option BayNo} {s : State} (h : OrderedBut x s) {b : BayNo} {l : List BayEvent}
    (hx : x = some b ∨ (s.bay b).inFlight = true) : OrderedBut x (s.setWaiting b l) := by
  obtain ⟨hlock, hbays⟩ := h
  refine ⟨fun y hy => ?_, fun c => ⟨fun hc hf => ?_, fun hu => ?_⟩⟩
  · simp only [State.setWaiting, setBay_bay]
    split
    · rename_i he
      exact he ▸ hlock y hy
    · exact hlock y hy
  · simp only [State.setWaiting, setBay_bay] at hf ⊢
    split at hf
    · rename_i he
      subst he
      exact (hx.elim (fun h => absurd h hc) fun h => by simp [h] at hf)
    · rename_i he
      rw [if_neg he]
      exact (hbays c).1 hc hf
  · simp only [State.setWaiting, setBay_bay]
    split
    · rename_i he
      exact he ▸ (hbays c).2 hu
    · exact (hbays c).2 hu

theorem turnList_ordered {b : BayNo} (l : List BayEvent) {s : State} (hs : OrderedBut (some b) s)
    (hl : (s.bay b).waiting = l) (unl : s.locked b = false) : OrderedBut none (turnList b l s) := by
  induction l generalizing s with
  | nil => exact hs.close fun _ => hl
  | cons ev rest ih =>
    have hset : OrderedBut (some b) (s.setWaiting b rest) := hs.setWaiting (.inl rfl)
    have hunl : (s.setWaiting b rest).locked b = false := unl
    have hgrows := startEvent_grows ev hunl
    have hstart := hset.grows hgrows
    unfold turnList
    simp only []
    split
    · rename_i hf
      exact hstart.close fun h => by simp [hf] at h
    · rename_i hf
      obtain ⟨hbays, -, -⟩ := (startEvent_turned b ev (s.setWaiting b rest)).idle (eq_false_of_ne_true hf)
      refine ih hstart ?_ ((hgrows.locked b).trans hunl)
      have hbay : (startEvent b ev (s.setWaiting b rest)).bay b = (s.setWaiting b rest).bay b := by
        simp only [State.bay, hbays]
      rw [hbay, State.setWaiting, setBay_bay, if_pos rfl]

theorem turn_ordered {b : BayNo} {s : State} (hs : OrderedBut (some b) s)
    (hlocked : s.locked b = true → (s.bay b).waiting = []) : OrderedBut none (turn b s) := by
  unfold turn
  split
  · rename_i h
    refine hs.close fun hf => hlocked ?_
    simpa [hf] using h
  · rename_i h
    simp only [Bool.or_eq_true, not_or, Bool.not_eq_true] at h
    exact turnList_ordered _ hs rfl h.2

/-! ## Events reaching a bay -/

/-- Where the bay is locked, events and a frame are held for it (R70). -/
theorem OrderedBut.setHeld {s : State} (h : OrderedBut none s) {b : BayNo} (hb : s.locked b = true)
    (held : List BayEvent) (deferred : Option HandedFrame) :
    OrderedBut none (s.setBay b { s.bay b with held := held, deferred := deferred }) := by
  obtain ⟨hlock, hbays⟩ := h
  refine ⟨fun y hy => ?_, fun c => ⟨fun hc hf => ?_, fun hu => ?_⟩⟩
  · rw [setBay_bay]
    split
    · rename_i he
      exact he ▸ hlock y hy
    · exact hlock y hy
  · rw [setBay_bay] at hf ⊢
    split at hf
    · rename_i he
      rw [if_pos he]
      exact (hbays b).1 (by simp) hf
    · rename_i he
      rw [if_neg he]
      exact (hbays c).1 hc hf
  · have hne : b ≠ c := fun he => by
      have : s.locked c = false := hu
      simp [← he, hb] at this
    rw [setBay_bay, if_neg hne]
    exact (hbays c).2 hu

theorem offerHeld_ordered (b : BayNo) (ev : BayEvent) {s : State} (hs : OrderedBut none s) :
    OrderedBut none (offerHeld b ev s) := by
  unfold offerHeld
  simp only []
  split
  · rename_i hl
    exact hs.setHeld hl _ _
  · rename_i hl
    split
    · rename_i hf
      exact hs.setWaiting (.inr hf)
    · exact hs.grows (startEvent_grows ev (eq_false_of_ne_true hl))

theorem offerFrame_ordered (h : HandedFrame) {s : State} (hs : OrderedBut none s) : OrderedBut none (offerFrame h s) := by
  unfold offerFrame
  simp only []
  split
  · rename_i hl
    have hset := (hs.setHeld hl (s.bay h.bay).held (some h)).grows
      (.of_same (t := (s.setBay h.bay { s.bay h.bay with deferred := some h }).clearHandOff) rfl rfl)
    split
    · exact hset.grows (.of_same rfl rfl)
    · exact hset
  · rename_i hl
    split
    · rename_i hf
      exact hs.setWaiting (.inr hf)
    · exact hs.grows (startEvent_grows _ (eq_false_of_ne_true hl))

theorem offerCommand_ordered (b : BayNo) {s : State} (hs : OrderedBut none s) : OrderedBut none (offerCommand b s) := by
  unfold offerCommand
  simp only []
  split
  · exact hs.grows (.of_same rfl rfl)
  · rename_i hl
    split
    · rename_i hf
      exact (hs.setWaiting (.inr hf)).grows (.of_same rfl rfl)
    · exact hs.grows (.before (t := s.setProgress (.awaitsTurn b)) rfl rfl
        (startEvent_grows _ (eq_false_of_ne_true hl)))

/-! ## The end of an update, and the release of the lock -/

theorem endUpdate_ordered (b : BayNo) {s : State} (hs : OrderedBut none s) : OrderedBut none (endUpdate b s) := by
  obtain ⟨hlock, hbays⟩ := hs
  unfold endUpdate
  simp only []
  refine (OrderedBut.grows ?_ (act_grows _ _)).grows (fetchJudge_grows _)
  have hset : OrderedBut (some b) (s.setBay b { s.bay b with inFlight := false }) := by
    refine ⟨fun y hy => ?_, fun c => ?_⟩
    · rw [setBay_bay]
      split
      · rfl
      · exact hlock y hy
    · rw [setBay_bay]
      split
      · rename_i he
        subst he
        exact ⟨fun h => absurd rfl h, (hbays b).2⟩
      · exact ⟨fun _ => (hbays c).1 (by simp), (hbays c).2⟩
  have hfin := hset.grows (finishUpdating_grows b _)
  refine turn_ordered hfin fun hl => ?_
  have hl : s.locked b = true := by rwa [(finishUpdating_grows b _).locked] at hl
  obtain ⟨y, hy, hyb⟩ := locked_lock hl
  have hwait := (hbays b).1 (by simp) (hyb ▸ hlock y hy)
  simpa [State.bay, finishUpdating_bays, State.setBay] using hwait

theorem unlocked_ordered (l : BayLock) {s : State} (hl : s.access.lock = some l) (hs : OrderedBut none s) :
    OrderedBut none (unlocked l.bay { s with access := { s.access with lock := none } }) := by
  obtain ⟨hlock, hbays⟩ := hs
  have hfree := hlock l hl
  unfold unlocked
  simp only []
  refine (OrderedBut.grows ?_ (act_grows _ _)).grows (.of_same rfl rfl)
  generalize releasedEvents _ _ = evs
  have hset : OrderedBut (some l.bay)
      (State.setBay { s with access := { s.access with lock := none } } l.bay
        { s.bay l.bay with waiting := evs, held := [], deferred := none }) := by
    refine ⟨fun _ hy => (Option.some_ne_none _ hy.symm).elim, fun c => ?_⟩
    rw [setBay_bay]
    split
    · rename_i he
      subst he
      exact ⟨fun h => absurd rfl h, fun _ => ⟨rfl, rfl⟩⟩
    · rename_i he
      refine ⟨fun _ => (hbays c).1 (by simp), fun _ => (hbays c).2 ?_⟩
      simpa [State.locked, hl] using he
  refine turn_ordered (hset.grows ?_) fun h => ?_
  · split <;> exact .of_same rfl rfl
  · split at h <;> cases h

/-! ## Commands, and the other changes -/

/-- What keeps the bays and the lock keeps the law. -/
theorem OrderedBut.of_same {s t : State} (hs : OrderedBut none s) (hb : t.bays = s.bays) (hl : t.access.lock = s.access.lock) :
    OrderedBut none t :=
  hs.grows (.of_same hb hl)

theorem OrderedBut.finish {s : State} (hs : OrderedBut none s) (r : Result) : OrderedBut none (s.finish r) :=
  hs.grows (finish_grows s r)

/-- A command that names no bay: it sets what is its own, and a raised capacity grants. -/
theorem Configured.grows {s u : State} (h : Configured s u) : Grows s u := by
  rw [h.rest]
  exact .of_same rfl rfl

/-- What a command does that is run: it sets what is its own to set and finishes, grants at a feeder, waits as a HALT for the
updates in flight, or reaches its bay. -/
inductive Ran (cmd : Command) (s : State) : State → Prop
  | settles (u : State) (r : Result) (own : Configured s u) : Ran cmd s (u.finish r)
  | rewrites (u : State) (r : Result) (own : Configured s u) : Ran cmd s (u.wantRewrite.finish r)
  | feeds (f : FeederNo) (u : State) (own : Configured s u) : Ran cmd s (act f (u.finish .ok))
  | halts (u : State) (own : Configured s u) (halted : u.decoder.mode = .halted) :
    Ran cmd s (u.wantRewrite.setProgress .halting)
  | reaches (b : BayNo) (code : cmd.code.toNat ∈ [6, 7, 8, 9, 10, 12])
      (named : cmd.code = 7 → ∃ t ∈ s.link.tagMap, t.radio.toNat = cmd.a.toNat ∧ t.bay = b) :
    Ran cmd s (offerCommand b s)

theorem Ran.refuses (cmd : Command) (s : State) (r : Result) : Ran cmd s (s.finish r) := .settles s r (.refl s)

theorem bayCommand_ran {cmd : Command} (a : Word) (ok : Bool) (s : State) (code : cmd.code.toNat ∈ [6, 8, 9, 10, 12]) :
    Ran cmd s (bayCommand a ok s) := by
  unfold bayCommand
  split
  · exact .refuses _ _ _
  · split
    · exact .refuses _ _ _
    · split
      · refine .reaches _ (by simp only [List.mem_cons] at *; tauto) fun h7 => ?_
        rw [h7] at code
        exact absurd code (by decide)
      · exact .refuses _ _ _

theorem commandUnmapTag_ran {cmd : Command} (s : State) (code : cmd.code.toNat = 7) : Ran cmd s (commandUnmapTag cmd s) := by
  unfold commandUnmapTag
  split
  · exact .refuses _ _ _
  · split
    · exact .refuses _ _ _
    · rename_i t ht
      exact .reaches t.bay (by simp [code]) fun _ => ⟨t, List.mem_of_find?_eq_some ht, by simpa using List.find?_some ht, rfl⟩

theorem commandSetFeeder_ran (cmd : Command) (s : State) : Ran cmd s (commandSetFeeder cmd s) := by
  unfold commandSetFeeder
  split
  · exact .refuses _ _ _
  · rename_i f _
    split
    · exact .refuses _ _ _
    · rename_i hn
      have own := configured_setFeeder (s := s) f (Nat.not_lt.1 hn)
      simp only []
      split
      · exact .feeds f _ own
      · exact .settles _ _ own

/-- The mode set by RUN and HALT (R14). -/
theorem configured_mode {s : State} {m : Mode} (hd : DecoderChange s.decoder { s.decoder with mode := m }) (hm : m ≠ .pass) :
    Configured s { s with decoder := { s.decoder with mode := m } } :=
  configured_of hd (fun h => absurd h hm) s.params s.clock.time s.link.injection s.counters s.status.counterChanged

theorem commandRun_ran (cmd : Command) (s : State) : Ran cmd s (commandRun s) := by
  unfold commandRun
  split
  · split
    · rename_i hon
      exact .rewrites _ _ (configured_mode (.run _ fun _ => hon) (by decide))
    · exact .refuses _ _ _
  · exact .refuses _ _ _
  · rename_i hm
    exact .rewrites _ _ (configured_mode (.run _ fun hp => absurd (hm.symm.trans hp) (by decide)) (by decide))

theorem commandHalt_ran (cmd : Command) (s : State) : Ran cmd s (commandHalt s) := by
  unfold commandHalt
  split
  · exact .refuses _ _ _
  · rename_i hm
    split
    · exact .halts _ (configured_mode (.halt _ hm) (by decide)) rfl
    · exact .rewrites _ _ (configured_mode (.halt _ hm) (by decide))
  · exact .refuses _ _ _

theorem commandSetWindow_ran (cmd : Command) (s : State) : Ran cmd s (commandSetWindow cmd s) := by
  unfold commandSetWindow
  split
  · exact .refuses _ _ _
  · rename_i hm
    split
    · exact .refuses _ _ _
    · rename_i n _
      split
      · exact .refuses _ _ _
      · rename_i x hx
        exact .settles { s with decoder := { s.decoder with windows := s.decoder.windows.put x n } } _
          (configured_of (.window _ n _ _ x (not_not.1 hm) hx) id s.params s.clock.time s.link.injection s.counters
            s.status.counterChanged)

theorem commandInject_ran (cmd : Command) (s : State) : Ran cmd s (commandInject cmd s) := by
  unfold commandInject
  split
  · exact .refuses _ _ _
  · split
    · exact .refuses _ _ _
    · split
      · exact .refuses _ _ _
      · rename_i k _
        exact .settles { s with link := { s.link with injection := k.map fun x => (cmd.a.setWidth 10, x) } } _
          (configured_of (.same _) id s.params s.clock.time _ s.counters s.status.counterChanged)

theorem runCommand_ran (cmd : Command) (s : State) : Ran cmd s (runCommand cmd s) := by
  unfold runCommand
  split
  · exact commandSetWindow_ran cmd s
  · unfold commandSetTiming
    split
    · rename_i p _
      exact .settles { s with params := p } _
        (configured_of (.same _) id p s.clock.time s.link.injection s.counters s.status.counterChanged)
    · exact .refuses _ _ _
  · exact commandRun_ran cmd s
  · exact commandHalt_ran cmd s
  · exact .settles { s with clock := { s.clock with time := cmd.a } } _
      (configured_of (.same _) id s.params cmd.a s.link.injection s.counters s.status.counterChanged)
  · rename_i hcode
    exact bayCommand_ran _ _ s (by simp [hcode])
  · rename_i hcode
    exact commandUnmapTag_ran s hcode
  · rename_i hcode
    exact bayCommand_ran _ _ s (by simp [hcode])
  · rename_i hcode
    exact bayCommand_ran _ _ s (by simp [hcode])
  · rename_i hcode
    exact bayCommand_ran _ _ s (by simp [hcode])
  · exact commandSetFeeder_ran cmd s
  · rename_i hcode
    exact bayCommand_ran _ _ s (by simp [hcode])
  · exact commandInject_ran cmd s
  · exact .settles { s with counters := .zero, status := { s.status with counterChanged := true } } _
      (configured_of (.same _) id s.params s.clock.time s.link.injection .zero true)
  · exact .refuses _ _ _

theorem Ran.ordered {cmd : Command} {s t : State} (h : Ran cmd s t) (hs : OrderedBut none s) : OrderedBut none t := by
  cases h with
  | settles u r own => exact (hs.grows own.grows).finish r
  | rewrites u r own => exact ((hs.grows own.grows).of_same (t := u.wantRewrite) rfl rfl).finish r
  | feeds f u own => exact ((hs.grows own.grows).finish _).grows (act_grows f _)
  | halts u own => exact (hs.grows own.grows).of_same rfl rfl
  | reaches b => exact offerCommand_ordered b hs

theorem takeCommand_bays (cmd : Command) (s : State) : (s.takeCommand cmd).bays = s.bays := by
  simp only [State.takeCommand, State.leaveDone]
  split <;> rfl

theorem takeCommand_access (cmd : Command) (s : State) : (s.takeCommand cmd).access = s.access := by
  simp only [State.takeCommand, State.leaveDone]
  split <;> rfl

theorem takeAndRun_ordered (code : Word) {s : State} (hs : OrderedBut none s) : OrderedBut none (takeAndRun code s) :=
  (runCommand_ran _ _).ordered (hs.of_same (takeCommand_bays _ s) (by rw [takeCommand_access]))

theorem acknowledge_grows (s : State) : Grows s (acknowledge s) := by
  unfold acknowledge
  split
  · exact .of_same rfl rfl
  · exact .refl s

theorem Answer.ordered {r : Request} {s t : State} (h : Answer r s t) (hs : OrderedBut none s) : OrderedBut none t := by
  cases h with
  | delays =>
    refine hs.of_same ?_ ?_
    · simp only [complete_bays, State.addEntry]
      split <;> rfl
    · simp only [complete_access, State.addEntry]
      split <;> rfl
  | acknowledges => exact ((hs.grows (acknowledge_grows s)).of_same rfl rfl)
  | commands code => exact (takeAndRun_ordered code hs).of_same rfl rfl
  | locks b _ unlocked free =>
    obtain ⟨hlock, hbays⟩ := hs
    refine ⟨fun l hl => ?_, fun c => ⟨fun _ => (hbays c).1 (by simp), fun hu => ?_⟩⟩
    · cases hl
      exact free
    · refine (hbays c).2 ?_
      simp [State.locked, unlocked]
  | sets b x =>
    exact (hs.grows (setBay_grows (e := { s.bay b with settings := x }) ⟨.refl _, .refl _, rfl⟩ rfl)).of_same rfl rfl
  | completes | queues | delivers | passes | consumes => exact hs.of_same rfl rfl

theorem finishRequest_grows (r : Request) (data : List Word) (s : State) (p : Path) :
    Grows s (finishRequest r data s p) := by
  cases p with
  | plain | commandWord | consumerIndex | settings b => exact .of_same rfl rfl
  | argument x => cases x <;> exact .of_same rfl rfl
  | bayRead b overtaken =>
    simp only [finishRequest, rejudgeRead, State.addEntry]
    split_ifs <;> exact .of_same rfl rfl

theorem finishFetch_grows (x : Fetch) (s : State) : Grows s (finishFetch x s) := by
  simp only [finishFetch]
  refine .trans ?_ (fetchJudge_grows _)
  split <;> exact .of_same rfl rfl

theorem passPeriods_grows (n : Nat) (s : State) : Grows s (passPeriods n s) where
  lists _ := .refl _
  busy _ h := h
  fresh _ h := .inl h
  lock := by
    simp only [passPeriods, Option.map_map]
    rfl

theorem tick_bay (s : State) (b : BayNo) :
    State.bay { s with bays := s.bays.map BayEntry.tick, feeders := s.feeders.map Feeder.tick } b = (s.bay b).tick := by
  simp [State.bay]

theorem tickTimers_grows (s : State) : Grows s (tickTimers s) := by
  unfold tickTimers
  split
  · exact ⟨fun b => by rw [tick_bay]; exact ⟨.refl _, .refl _, rfl⟩, fun b h => by rw [tick_bay]; exact h,
      fun b h => .inl (by rwa [tick_bay] at h), rfl⟩
  · exact .refl s

theorem yardTick_grows (s : State) : Grows s (yardTick s) := by
  unfold yardTick counterRewrite
  refine ((passPeriods_grows (secondPeriods - s.clock.base) s).after (u := tickClock (passPeriods _ s)) rfl rfl).trans
    ((tickTimers_grows _).trans ?_)
  split
  · exact .of_same rfl rfl
  · exact .refl _

theorem raiseFeeder_grows (f : FeederNo) (c : Condition) (s : State) : Grows s (raiseFeeder f c s) := by
  unfold raiseFeeder
  split
  · exact .refl s
  · exact .of_same rfl rfl

theorem becomeActive_grows (f : FeederNo) (s : State) : Grows s (becomeActive f s) := by
  unfold becomeActive
  simp only []
  refine .trans ?_ (act_grows f _)
  generalize hx : Feeder.restored _ _ = c
  clear hx
  exact (Grows.before (s := s) (t := s.setFeeder f _) rfl rfl (raiseFeeder_grows f c _)).after (u := State.wantRewrite _) rfl rfl

theorem revokeOne_grows (f : FeederNo) (s : State) (b : BayNo) : Grows s (revokeOne f s b) := by
  have h := (reworks_revoke f (Work.start (s.bay b))).steady
  exact (setBay_grows h.lists h.inFlight).after rfl rfl

theorem foldl_ordered {α : Type} {g : State → α → State} (h : ∀ s a, OrderedBut none s → OrderedBut none (g s a))
    (l : List α) {s : State} (hs : OrderedBut none s) : OrderedBut none (l.foldl g s) := by
  induction l generalizing s with
  | nil => exact hs
  | cons a rest ih => exact ih (h s a hs)

theorem tripFeeder_ordered (f : FeederNo) {s : State} (hs : OrderedBut none s) : OrderedBut none (tripFeeder f s) := by
  simp only [tripFeeder]
  refine foldl_ordered (fun u b hu => offerHeld_ordered b _ hu) _ ?_
  have hrevoked := foldl_ordered (fun u b hu => hu.grows (revokeOne_grows f u b)) (s.feeder f).grants hs
  generalize (s.feeder f).grants.foldl (revokeOne f) s = u at hrevoked
  generalize Feeder.trip _ _ _ _ = x
  exact ((hrevoked.of_same (t := u.setFeeder f x) rfl rfl).grows (raiseFeeder_grows f _ _)).of_same rfl rfl

theorem putTimer_lists (e : BayEntry) (t : BayTimer) (x : Timer) :
    Lists e (e.putTimer t x) ∧ (e.putTimer t x).inFlight = e.inFlight := by
  cases t <;> exact ⟨⟨.refl _, .refl _, rfl⟩, rfl⟩

theorem timerExpires_ordered (b : BayNo) (t : BayTimer) {s : State} (hs : OrderedBut none s) :
    OrderedBut none (timerExpires b t s) := by
  obtain ⟨hl, hf⟩ := putTimer_lists (s.bay b) t (.expired ((s.bay b).timer t).length)
  exact offerHeld_ordered b _ (hs.grows (setBay_grows hl hf))

theorem claim_grows (s : State) (x : Source) : Grows s (claim s x) := by
  refine .after (t := clearOrder s x) ?_ (by cases x <;> rfl) (by cases x <;> rfl)
  cases x with
  | order b => exact setBay_grows ⟨.refl _, .refl _, rfl⟩ rfl
  | feeder | tag | alert => exact .refl s

theorem takeEntry_ordered (e : InboxEntry) {s : State} (hs : OrderedBut none s) : OrderedBut none (takeEntry e s) := by
  obtain ⟨u, hu, ht⟩ := takeEntry_handsOn e s
  have hsame : OrderedBut none u := by
    rw [hu.rest]
    exact hs.of_same rfl rfl
  rcases ht with ht | ⟨h, ht⟩ <;> rw [ht]
  · exact hsame
  · exact offerFrame_ordered h (hsame.of_same rfl rfl)

theorem blank_ordered (p : List Instr) (pins : Pins) (m : Memory) (n : Nat) :
    OrderedBut none (State.blank p pins m n) := by
  refine ⟨fun l hl => (Option.some_ne_none _ hl.symm).elim, fun b => ?_⟩
  rw [blank_bay]
  exact ⟨fun _ _ => rfl, fun _ => ⟨rfl, rfl⟩⟩

theorem Change.ordered {s t : State} (h : Change s t) (hs : OrderedBut none s) : OrderedBut none t := by
  cases h with
  | queue | line | counts | clearsAnswer | grantsPort | reclaims | noticeEnds | resultEnds | firstBurstEnds =>
    exact hs.of_same rfl rfl
  | passes n => exact hs.grows (passPeriods_grows n s)
  | resetFalls => exact blank_ordered _ _ _ _
  | resetReleases memsize =>
    exact (blank_ordered s.pending { s.pins with resetN := true, memsize := memsize, attnN := true } s.mem
      s.freeUsed).of_same rfl rfl
  | claims x => exact hs.grows (claim_grows s x)
  | presents => rw [statusSettle_eq]; exact hs.of_same rfl rfl
  | haltCompletes => exact (hs.of_same (t := s.wantRewrite) rfl rfl).finish .ok
  | unlocks l _ held => exact unlocked_ordered l held hs
  | answers r => exact (answer_cases r s).ordered hs
  | requestEnds o =>
    exact (hs.of_same (t := s.endBurst .passThrough) rfl rfl).grows (finishRequest_grows _ _ _ _)
  | updateEnds x => exact endUpdate_ordered _ (hs.of_same rfl rfl)
  | blockEnds n =>
    refine hs.of_same ?_ ?_
    all_goals
      unfold State.presentPending State.afterBlock
      split_ifs <;> rfl
  | fetchEnds x => exact hs.grows (finishFetch_grows x s)
  | takes e rest => exact takeEntry_ordered e (hs.of_same rfl rfl)
  | expires b x => exact timerExpires_ordered b x hs
  | activates f => exact hs.grows (becomeActive_grows f s)
  | restores f _ tripped => exact hs.of_same rfl rfl
  | trips f => exact tripFeeder_ordered f hs
  | ticks => exact hs.grows (yardTick_grows s)

theorem step_eventsInOrder {s t : State} (hs : EventsInOrder s) (h : step s = .next t) : EventsInOrder t :=
  (eventsInOrder_iff t).2 (step_keeps (fun _ _ hc => hc.ordered) ((eventsInOrder_iff s).1 hs) h)

/-- Settles O55: each change of a step keeps the events in order (`Change.ordered`) and the bursts of the updates
(`Change.burstsFollow`). -/
theorem lockUpdatesAndBurstsStayInStep : Obligations.LockUpdatesAndBurstsStayInStep := by
  unfold Obligations.LockUpdatesAndBurstsStayInStep
  exact ⟨fun _ _ => step_eventsInOrder, fun _ _ hb _ => step_burstsFollow hb⟩

end Sys2Proof.Machine

/-! PROOFS. R14, R69, R71, R187-R190: one command is run at a time, and it stands where its progress says. -/

namespace Sys2Proof.Machine

/-! ## The law of the commands, in parts -/

/-- What `CommandLaw` asks of the mailbox and the Status Writer. -/
structure MailboxLaw (s : State) : Prop where
  current : s.mailbox.state = .busy ↔ s.mailbox.current ≠ none
  progress : s.mailbox.state = .busy ↔ s.mailbox.progress ≠ .none
  finished : s.mailbox.progress = .finished ↔ s.status.resultPending = true ∨ s.resultPresented = true
  once : s.status.resultPending = true → s.resultPresented = false
  halting : s.mailbox.progress = .halting → s.decoder.mode = .halted

/-- What `CommandLaw` asks of the events of one bay. -/
structure BayLaw (s : State) (b : BayNo) : Prop where
  turn : s.mailbox.progress = .awaitsTurn b ↔ .command ∈ (s.bay b).waiting
  count : (s.bay b).waiting.count .command ≤ 1
  held : .command ∉ (s.bay b).held
  unlock : s.mailbox.progress = .awaitsUnlock b → s.locked b = true
  updating : s.mailbox.progress = .updating b → (s.bay b).inFlight = true
  named : ∀ cmd, (s.mailbox.progress = .awaitsTurn b ∨ s.mailbox.progress = .awaitsUnlock b) →
    s.mailbox.current = some cmd →
    cmd.code.toNat ∈ [6, 7, 8, 9, 10, 12] ∧ (cmd.code = 7 → ∃ t ∈ s.link.tagMap, t.radio.toNat = cmd.a.toNat ∧ t.bay = b)

theorem resultPresented_iff (s : State) : s.resultPresented = true ↔ ∃ w, s.status.presented = some (.result w) := by
  unfold State.resultPresented
  split
  · rename_i w h
    exact ⟨fun _ => ⟨w, h⟩, fun _ => rfl⟩
  · rename_i h
    exact ⟨nofun, fun ⟨w, hw⟩ => absurd hw (h w)⟩

theorem commandLaw_iff (s : State) : CommandLaw s ↔ MailboxLaw s ∧ ∀ b, BayLaw s b := by
  have hshown : s.resultPresented = false ↔ ∀ w, s.status.presented ≠ some (.result w) := by
    rw [← Bool.not_eq_true, resultPresented_iff, not_exists]
  constructor
  · rintro ⟨h1, h2, h3, h4, h5, hb⟩
    refine ⟨⟨h1, h2, by rw [resultPresented_iff]; exact h3, fun h => hshown.2 (h4 h), h5⟩, fun b => ?_⟩
    obtain ⟨b1, b2, b3, b4, b5, b6⟩ := hb b
    exact ⟨b1, b2, b3, b4, b5, b6⟩
  · rintro ⟨h, hb⟩
    exact ⟨h.current, h.progress, by rw [← resultPresented_iff]; exact h.finished, fun hp => hshown.1 (h.once hp), h.halting,
      fun b => ⟨(hb b).turn, (hb b).count, (hb b).held, (hb b).unlock, (hb b).updating, (hb b).named⟩⟩

/-! ## What leaves the command alone -/

/-- The command in the mailbox, its result word and the mode are as they were, and a mapped radio stays mapped. -/
structure Still (s t : State) : Prop where
  state : t.mailbox.state = s.mailbox.state
  current : t.mailbox.current = s.mailbox.current
  progress : t.mailbox.progress = s.mailbox.progress
  pending : t.status.resultPending = s.status.resultPending
  shown : t.resultPresented = s.resultPresented
  mode : t.decoder.mode = s.decoder.mode
  mapped : ∀ x ∈ s.link.tagMap, ∃ y ∈ t.link.tagMap, y.radio = x.radio ∧ y.bay = x.bay

theorem Still.refl (s : State) : Still s s := ⟨rfl, rfl, rfl, rfl, rfl, rfl, fun x hx => ⟨x, hx, rfl, rfl⟩⟩

theorem Still.trans {s t u : State} (h : Still s t) (h' : Still t u) : Still s u where
  state := h'.state.trans h.state
  current := h'.current.trans h.current
  progress := h'.progress.trans h.progress
  pending := h'.pending.trans h.pending
  shown := h'.shown.trans h.shown
  mode := h'.mode.trans h.mode
  mapped x hx := by
    obtain ⟨y, hy, hyr, hyb⟩ := h.mapped x hx
    obtain ⟨z, hz, hzr, hzb⟩ := h'.mapped y hy
    exact ⟨z, hz, hzr.trans hyr, hzb.trans hyb⟩

theorem Still.of_same {s t : State} (hm : t.mailbox = s.mailbox) (hp : t.status.resultPending = s.status.resultPending)
    (hs : t.status.presented = s.status.presented) (hd : t.decoder.mode = s.decoder.mode)
    (hl : t.link.tagMap = s.link.tagMap) : Still s t where
  state := by rw [hm]
  current := by rw [hm]
  progress := by rw [hm]
  pending := hp
  shown := by simp only [State.resultPresented, hs]
  mode := hd
  mapped x hx := ⟨x, hl ▸ hx, rfl, rfl⟩

/-- Updates may have begun; the command stands where it stood. -/
def Calm (s t : State) : Prop := Grows s t ∧ Still s t

theorem Calm.refl (s : State) : Calm s s := ⟨.refl s, .refl s⟩

theorem Calm.trans {s t u : State} (h : Calm s t) (h' : Calm t u) : Calm s u := ⟨h.1.trans h'.1, h.2.trans h'.2⟩

theorem foldl_still {α : Type} {g : State → α → State} (h : ∀ s a, Still s (g s a)) (l : List α) (s : State) :
    Still s (l.foldl g s) := by
  induction l generalizing s with
  | nil => exact .refl s
  | cons a rest ih => exact (h s a).trans (ih _)

theorem commitCore_still (b : BayNo) (w : Work) (full : Bool) (s : State) : Still s (commitCore b w full s) :=
  .of_same rfl rfl rfl rfl rfl

theorem grant_still (f : FeederNo) (b : BayNo) (s : State) : Still s (grant f b s) :=
  (Still.of_same (s := s) (t := s.setFeeder f (((s.feeder f).unqueue b).addGrant b)) rfl rfl rfl rfl rfl).trans
    (commitCore_still _ _ _ _)

theorem grantPass_still (f : FeederNo) (q : List (BayNo × Time)) (s : State) : Still s (grantPass f q s) := by
  induction q generalizing s with
  | nil => exact .refl s
  | cons x rest ih =>
    unfold grantPass
    split
    · exact (grant_still f x.1 s).trans (ih _)
    · exact ih s

theorem act_calm (f : FeederNo) (s : State) : Calm s (act f s) := ⟨act_grows f s, grantPass_still f _ s⟩

theorem opened_still (b : BayNo) (w : Work) (full : Bool) (s : State) : Still s (opened b w full s) :=
  (commitCore_still b w full s).trans (foldl_still (g := applyReport b) (fun _ _ => .of_same rfl rfl rfl rfl rfl) _ _)

theorem commit_still (b : BayNo) (w : Work) (full : Bool) (s : State) : Still s (commit b w full s) := by
  rw [commit_eq]
  exact (opened_still b w full s).trans (foldl_still (fun u f => (act_calm f u).2) _ _)

theorem fetchJudge_calm (s : State) : Calm s (fetchJudge s) := by
  refine ⟨fetchJudge_grows s, ?_⟩
  unfold fetchJudge
  split
  · exact .refl s
  · split
    · exact .of_same rfl rfl rfl rfl rfl
    · exact .refl s

theorem wantRewrite_calm (s : State) : Calm s s.wantRewrite := ⟨.of_same rfl rfl, .of_same rfl rfl rfl rfl rfl⟩

theorem meetFrame_still (b : BayNo) (h : HandedFrame) (s : State) : Still s (meetFrame b h s) := by
  unfold meetFrame
  split
  · exact commit_still _ _ _ _
  · exact .refl s

theorem startEvent_calm {b : BayNo} {ev : BayEvent} (hev : ev ≠ .command) {s : State} (unl : s.locked b = false) :
    Calm s (startEvent b ev s) := by
  refine ⟨startEvent_grows ev unl, ?_⟩
  cases ev with
  | expiry t stale =>
    simp only [startEvent]
    split
    · exact .refl s
    · exact commit_still _ _ _ _
  | revocation => exact commit_still _ _ _ _
  | handOffFrame =>
    simp only [startEvent]
    split
    · exact (Still.of_same (s := s) (t := s.clearHandOff) rfl rfl rfl rfl rfl).trans (meetFrame_still b _ _)
    · exact .refl s
  | deferredFrame h => exact meetFrame_still b h s
  | command => exact absurd rfl hev

theorem MailboxLaw.still {s t : State} (h : MailboxLaw s) (hs : Still s t) : MailboxLaw t where
  current := by rw [hs.state, hs.current]; exact h.current
  progress := by rw [hs.state, hs.progress]; exact h.progress
  finished := by rw [hs.progress, hs.pending, hs.shown]; exact h.finished
  once := by rw [hs.pending, hs.shown]; exact h.once
  halting := by rw [hs.progress, hs.mode]; exact h.halting

theorem BayLaw.calm {s t : State} {b : BayNo} (h : BayLaw s b) (hc : Calm s t) : BayLaw t b where
  turn := by rw [hc.2.progress, (hc.1.lists b).waiting.mem]; exact h.turn
  count := by rw [(hc.1.lists b).waiting.count]; exact h.count
  held := by rw [(hc.1.lists b).held.mem]; exact h.held
  unlock := by rw [hc.2.progress, hc.1.locked]; exact h.unlock
  updating hp := hc.1.busy b (h.updating (hc.2.progress ▸ hp))
  named cmd hp hcur := by
    rw [hc.2.progress] at hp
    rw [hc.2.current] at hcur
    obtain ⟨hcode, hnamed⟩ := h.named cmd hp hcur
    refine ⟨hcode, fun h7 => ?_⟩
    obtain ⟨x, hx, hxr, hxb⟩ := hnamed h7
    obtain ⟨y, hy, hyr, hyb⟩ := hc.2.mapped x hx
    exact ⟨y, hy, by rw [hyr, hxr], hyb.trans hxb⟩

theorem CommandLaw.calm {s t : State} (h : CommandLaw s) (hc : Calm s t) : CommandLaw t := by
  obtain ⟨hm, hb⟩ := (commandLaw_iff s).1 h
  exact (commandLaw_iff t).2 ⟨hm.still hc.2, fun b => (hb b).calm hc⟩

/-- A state that differs in nothing the law reads. -/
theorem CommandLaw.of_same {s t : State} (h : CommandLaw s) (hb : t.bays = s.bays) (hl : t.access.lock = s.access.lock)
    (hm : t.mailbox = s.mailbox) (hp : t.status.resultPending = s.status.resultPending)
    (hs : t.status.presented = s.status.presented) (hd : t.decoder.mode = s.decoder.mode)
    (ht : t.link.tagMap = s.link.tagMap) : CommandLaw t :=
  h.calm ⟨.of_same hb hl, .of_same hm hp hs hd ht⟩

/-! ## A command in hand: in no list of events, and without a result -/

/-- The current command is in no list of events, and its result word is not pending or presented. -/
structure InHand (s : State) : Prop where
  busy : s.mailbox.state = .busy
  current : s.mailbox.current ≠ none
  unfinished : s.status.resultPending = false
  unshown : s.resultPresented = false
  free : ∀ b, .command ∉ (s.bay b).waiting ∧ .command ∉ (s.bay b).held

theorem InHand.of_same {s t : State} (h : InHand s) (hb : t.bays = s.bays) (hst : t.mailbox.state = s.mailbox.state)
    (hc : t.mailbox.current = s.mailbox.current) (hp : t.status.resultPending = s.status.resultPending)
    (hs : t.status.presented = s.status.presented) : InHand t where
  busy := hst.trans h.busy
  current := by rw [hc]; exact h.current
  unfinished := hp.trans h.unfinished
  unshown := by simpa only [State.resultPresented, hs] using h.unshown
  free b := by
    have hbay : t.bay b = s.bay b := by simp only [State.bay, hb]
    rw [hbay]
    exact h.free b

theorem InHand.calm {s t : State} (h : InHand s) (hc : Calm s t) : InHand t where
  busy := hc.2.state.trans h.busy
  current := by rw [hc.2.current]; exact h.current
  unfinished := hc.2.pending.trans h.unfinished
  unshown := hc.2.shown.trans h.unshown
  free b := by
    rw [(hc.1.lists b).waiting.mem, (hc.1.lists b).held.mem]
    exact h.free b

/-- The current command stands where the law lets it stand, in no list of events. -/
theorem InHand.commandLaw {s : State} (h : InHand s) (hnone : s.mailbox.progress ≠ .none)
    (hfin : s.mailbox.progress ≠ .finished) (hturn : ∀ b, s.mailbox.progress ≠ .awaitsTurn b)
    (hhalt : s.mailbox.progress = .halting → s.decoder.mode = .halted)
    (hunlock : ∀ b, s.mailbox.progress = .awaitsUnlock b → s.locked b = true
      ∧ ∀ cmd, s.mailbox.current = some cmd → cmd.code.toNat ∈ [6, 7, 8, 9, 10, 12]
        ∧ (cmd.code = 7 → ∃ t ∈ s.link.tagMap, t.radio.toNat = cmd.a.toNat ∧ t.bay = b))
    (hupd : ∀ b, s.mailbox.progress = .updating b → (s.bay b).inFlight = true) : CommandLaw s := by
  refine (commandLaw_iff s).2 ⟨⟨?_, ?_, ?_, ?_, hhalt⟩, fun b => ⟨?_, ?_, (h.free b).2, fun hp => (hunlock b hp).1, hupd b, ?_⟩⟩
  · exact ⟨fun _ => h.current, fun _ => h.busy⟩
  · exact ⟨fun _ => hnone, fun _ => h.busy⟩
  · simp [hfin, h.unfinished, h.unshown]
  · simp [h.unfinished]
  · exact ⟨fun hp => absurd hp (hturn b), fun hm => absurd hm (h.free b).1⟩
  · rw [List.count_eq_zero.2 (h.free b).1]
    exact Nat.zero_le 1
  · exact fun cmd hp => hp.elim (fun hp => absurd hp (hturn b)) fun hp => (hunlock b hp).2 cmd

theorem InHand.finish {s : State} (h : InHand s) (r : Result) : CommandLaw (s.finish r) := by
  obtain ⟨cmd, hcmd⟩ := Option.ne_none_iff_exists'.1 h.current
  have hs : s.finish r = { s with
      mailbox := { s.mailbox with
        lastCode := cmd.code.setWidth 8, lastResult := some r, completions := s.mailbox.completions + 1, progress := .finished }
      status := { s.status with resultPending := true } } := by
    simp only [State.finish, hcmd]
  rw [hs]
  refine (commandLaw_iff _).2 ⟨⟨⟨fun _ => h.current, fun _ => h.busy⟩, ⟨fun _ => nofun, fun _ => h.busy⟩, ?_,
    fun _ => h.unshown, nofun⟩, fun b => ⟨⟨nofun, fun hm => absurd hm (h.free b).1⟩, ?_, (h.free b).2, nofun, nofun, ?_⟩⟩
  · simp
  · exact (List.count_eq_zero.2 (h.free b).1).le.trans (Nat.zero_le 1)
  · rintro cmd (hp | hp) <;> cases hp

/-- The current command becomes the one waiting event of its kind at a bay. -/
theorem InHand.waits {s : State} (h : InHand s) {b : BayNo} {e : BayEntry} (hc : e.waiting.count .command = 1)
    (hh : .command ∉ e.held)
    (named : ∀ cmd, s.mailbox.current = some cmd → cmd.code.toNat ∈ [6, 7, 8, 9, 10, 12]
      ∧ (cmd.code = 7 → ∃ t ∈ s.link.tagMap, t.radio.toNat = cmd.a.toNat ∧ t.bay = b)) :
    CommandLaw ((s.setBay b e).setProgress (.awaitsTurn b)) := by
  have hmem : .command ∈ e.waiting := List.count_pos_iff.1 (by omega)
  have hbay : ∀ c, ((s.setBay b e).setProgress (.awaitsTurn b)).bay c = if b = c then e else s.bay c :=
    fun c => setBay_bay s b c e
  refine (commandLaw_iff _).2 ⟨⟨⟨fun _ => h.current, fun _ => h.busy⟩, ⟨fun _ => nofun, fun _ => h.busy⟩, ?_, ?_, nofun⟩,
    fun c => ?_⟩
  · exact ⟨nofun, fun hp => by
      rcases hp with hp | hp
      · exact absurd hp (by simp [State.setProgress, State.setBay, h.unfinished])
      · exact absurd (h.unshown.symm.trans hp) (by decide)⟩
  · intro hp
    exact h.unshown
  · by_cases hcb : b = c
    · subst hcb
      refine ⟨?_, ?_, ?_, nofun, nofun, fun cmd _ hcur => named cmd hcur⟩
      · rw [hbay, if_pos rfl]
        exact ⟨fun _ => hmem, fun _ => rfl⟩
      · rw [hbay, if_pos rfl, hc]
      · rwa [hbay, if_pos rfl]
    · refine ⟨?_, ?_, ?_, nofun, nofun, ?_⟩
      · rw [hbay, if_neg hcb]
        refine ⟨fun hp => ?_, fun hm => absurd hm (h.free c).1⟩
        cases hp
        exact absurd rfl hcb
      · rw [hbay, if_neg hcb, List.count_eq_zero.2 (h.free c).1]
        exact Nat.zero_le 1
      · rw [hbay, if_neg hcb]
        exact (h.free c).2
      · rintro cmd (hp | hp) <;> cases hp
        exact absurd rfl hcb

/-! ## The turn of the command -/

theorem beginCommand_law {b : BayNo} {w : Work} (full : Bool) {s : State} (h : InHand s) (hw : Lists (s.bay b) w.bay)
    (unl : s.locked b = false) : CommandLaw (beginCommand b w full s) := by
  have hcalm : Calm (s.setProgress (.updating b)) (beginCommand b w full s) :=
    ⟨commit_grows full hw unl, commit_still _ _ _ _⟩
  have hprog : (beginCommand b w full s).mailbox.progress = .updating b := hcalm.2.progress
  have hand : InHand (beginCommand b w full s) :=
    (h.of_same (t := s.setProgress (.updating b)) rfl rfl rfl rfl rfl).calm hcalm
  refine hand.commandLaw ?_ ?_ ?_ ?_ ?_ ?_ <;> rw [hprog]
  · exact nofun
  · exact nofun
  · exact nofun
  · exact nofun
  · exact nofun
  · rintro c hc
    cases hc
    exact commit_inFlight _ _ _ _

theorem linkMap_mailbox (a : RadioAddr) (b : BayNo) (s : State) : (linkMap a b s).mailbox = s.mailbox := by
  unfold linkMap
  split <;> rfl

theorem linkMap_status (a : RadioAddr) (b : BayNo) (s : State) : (linkMap a b s).status = s.status := by
  unfold linkMap
  split <;> rfl

theorem turnCommand_law {b : BayNo} {s : State} (h : InHand s) (unl : s.locked b = false)
    (hcode : ∀ cmd, s.mailbox.current = some cmd → cmd.code.toNat ∈ [6, 7, 8, 9, 10, 12]) :
    CommandLaw (turnCommand b s) := by
  obtain ⟨cmd, hcmd⟩ := Option.ne_none_iff_exists'.1 h.current
  have hcode := hcode cmd hcmd
  unfold turnCommand
  rw [hcmd]
  simp only []
  split
  · unfold turnMapTag
    simp only []
    split
    · exact h.finish _
    · have hand : InHand (linkMap (cmd.a.setWidth 10) b s) :=
        h.of_same (linkMap_bays _ b s) (by rw [linkMap_mailbox]) (by rw [linkMap_mailbox]) (by rw [linkMap_status])
          (by rw [linkMap_status])
      exact beginCommand_law true hand (mapWork_lists _ b _ _) (by rw [linkMap_locked]; exact unl)
  · unfold turnUnmapTag
    split
    · exact h.finish _
    · have hand : InHand (linkUnmap (cmd.a.setWidth 10) b s) := h.of_same rfl rfl rfl rfl rfl
      exact beginCommand_law true hand (startWork_lists (unmapTag_lists _)) unl
  · unfold turnSetLoading
    split
    · exact h.finish _
    · exact beginCommand_law false h (reworks_setLoading _ _ (startWork b s)).lists unl
  · unfold turnForceDefrost
    split
    · exact beginCommand_law false h (reworks_demand _ (startWork b s)).lists unl
    · exact h.finish _
  · unfold turnCancelDefrost
    split
    · exact beginCommand_law false h (reworks_cancel _ (startWork b s)).lists unl
    · exact h.finish _
  · unfold turnAssignFeeder
    split
    · exact beginCommand_law false h ⟨.refl _, .refl _, rfl⟩ unl
    · exact h.finish _
  · rename_i h6 h7 h8 h9 h10 h12
    simp only [List.mem_cons, List.not_mem_nil, or_false] at hcode
    rcases hcode with hc | hc | hc | hc | hc | hc
    exacts [(h6 hc).elim, (h7 hc).elim, (h8 hc).elim, (h9 hc).elim, (h10 hc).elim, (h12 hc).elim]

/-! ## The turns of a bay's events -/

/-- As many commands among the waiting events as before. -/
theorem CommandLaw.setWaiting {s : State} (h : CommandLaw s) {b : BayNo} {l : List BayEvent}
    (hl : l.count .command = (s.bay b).waiting.count .command) : CommandLaw (s.setWaiting b l) := by
  obtain ⟨hm, hb⟩ := (commandLaw_iff s).1 h
  have hmem : .command ∈ l ↔ .command ∈ (s.bay b).waiting := by
    rw [← List.count_pos_iff, ← List.count_pos_iff, hl]
  refine (commandLaw_iff _).2 ⟨⟨hm.current, hm.progress, hm.finished, hm.once, hm.halting⟩, fun c => ?_⟩
  obtain ⟨hturn, hcount, hheld, hunlock, hupd, hnamed⟩ := hb c
  refine ⟨?_, ?_, ?_, hunlock, fun hp => ?_, hnamed⟩ <;> rw [State.setWaiting, setBay_bay] <;> split
  · rename_i he
    subst he
    exact hturn.trans hmem.symm
  · exact hturn
  · rename_i he
    subst he
    exact hl.le.trans hcount
  · exact hcount
  · rename_i he
    subst he
    exact hheld
  · exact hheld
  · rename_i he
    subst he
    exact hupd hp
  · exact hupd hp

/-- The command at the head of a bay's events is in hand once it has left them. -/
theorem CommandLaw.inHand {s : State} (h : CommandLaw s) {b : BayNo} {rest : List BayEvent}
    (hw : (s.bay b).waiting = .command :: rest) : InHand (s.setWaiting b rest) := by
  obtain ⟨hm, hb⟩ := (commandLaw_iff s).1 h
  have hprog : s.mailbox.progress = .awaitsTurn b := (hb b).turn.2 (by rw [hw]; exact List.mem_cons_self)
  have hbusy : s.mailbox.state = .busy := hm.progress.2 (by rw [hprog]; nofun)
  have hfin : ¬ (s.status.resultPending = true ∨ s.resultPresented = true) := fun hr => by
    have := hm.finished.2 hr
    rw [hprog] at this
    cases this
  simp only [not_or, Bool.not_eq_true] at hfin
  refine ⟨hbusy, hm.current.1 hbusy, hfin.1, hfin.2, fun c => ?_⟩
  rw [State.setWaiting, setBay_bay]
  split
  · have hcount := (hb b).count
    rw [hw, List.count_cons_self] at hcount
    have hzero : rest.count .command = 0 := by omega
    exact ⟨List.count_eq_zero.1 hzero, (hb b).held⟩
  · rename_i hc
    refine ⟨fun hmem => ?_, (hb c).held⟩
    have := (hb c).turn.2 hmem
    rw [hprog] at this
    cases this
    exact hc rfl

theorem turnList_law {b : BayNo} (l : List BayEvent) {s : State} (h : CommandLaw s) (hl : (s.bay b).waiting = l)
    (unl : s.locked b = false) : CommandLaw (turnList b l s) := by
  induction l generalizing s with
  | nil => exact h
  | cons ev rest ih =>
    have hunl : (s.setWaiting b rest).locked b = false := unl
    have hstart : CommandLaw (startEvent b ev (s.setWaiting b rest)) := by
      by_cases hev : ev = .command
      · subst hev
        refine turnCommand_law (h.inHand hl) hunl fun cmd hcur => ?_
        obtain ⟨-, hb⟩ := (commandLaw_iff s).1 h
        exact ((hb b).named cmd (.inl ((hb b).turn.2 (by rw [hl]; exact List.mem_cons_self))) hcur).1
      · refine CommandLaw.calm (h.setWaiting ?_) (startEvent_calm hev hunl)
        rw [hl, List.count_cons_of_ne hev]
    unfold turnList
    simp only []
    split
    · exact hstart
    · rename_i hf
      obtain ⟨hbays, -, -⟩ := (startEvent_turned b ev (s.setWaiting b rest)).idle (eq_false_of_ne_true hf)
      refine ih hstart ?_ (((startEvent_grows ev hunl).locked b).trans hunl)
      have hbay : (startEvent b ev (s.setWaiting b rest)).bay b = (s.setWaiting b rest).bay b := by
        simp only [State.bay, hbays]
      rw [hbay, State.setWaiting, setBay_bay, if_pos rfl]

theorem turn_law {b : BayNo} {s : State} (h : CommandLaw s) : CommandLaw (turn b s) := by
  unfold turn
  split
  · exact h
  · rename_i hc
    simp only [Bool.or_eq_true, not_or, Bool.not_eq_true] at hc
    exact turnList_law _ h rfl hc.2

/-! ## Events reaching a bay -/

/-- A change of a bay's entry that leaves its waiting events and keeps commands out of its held ones. -/
theorem CommandLaw.setBay {s : State} (h : CommandLaw s) {b : BayNo} {e : BayEntry}
    (hw : e.waiting.count .command = (s.bay b).waiting.count .command) (hh : .command ∉ e.held)
    (hf : s.mailbox.progress = .updating b → e.inFlight = true) : CommandLaw (s.setBay b e) := by
  have hset := (commandLaw_iff _).1 (h.setWaiting (l := e.waiting) hw)
  obtain ⟨hm, hb⟩ := (commandLaw_iff s).1 h
  refine (commandLaw_iff _).2 ⟨⟨hm.current, hm.progress, hm.finished, hm.once, hm.halting⟩, fun c => ?_⟩
  obtain ⟨hturn, hcount, -, -, -, -⟩ := hset.2 c
  obtain ⟨-, -, hheld, hunlock, hupd, hnamed⟩ := hb c
  rw [State.setWaiting, setBay_bay] at hturn hcount
  refine ⟨?_, ?_, ?_, hunlock, fun hp => ?_, hnamed⟩ <;> rw [setBay_bay] <;> split
  · rename_i he
    rwa [if_pos he] at hturn
  · rename_i he
    rwa [if_neg he] at hturn
  · rename_i he
    rwa [if_pos he] at hcount
  · rename_i he
    rwa [if_neg he] at hcount
  · exact hh
  · exact hheld
  · rename_i he
    subst he
    exact hf hp
  · exact hupd hp

theorem CommandLaw.held {s : State} (h : CommandLaw s) (b : BayNo) : .command ∉ (s.bay b).held :=
  (((commandLaw_iff s).1 h).2 b).held

theorem CommandLaw.updating {s : State} (h : CommandLaw s) {b : BayNo} (hp : s.mailbox.progress = .updating b) :
    (s.bay b).inFlight = true := (((commandLaw_iff s).1 h).2 b).updating hp

theorem count_append_ne {ev : BayEvent} (hev : ev ≠ .command) (l : List BayEvent) :
    (l ++ [ev]).count .command = l.count .command := by
  rw [List.count_append, List.count_singleton, if_neg (by simpa using hev)]
  rfl

theorem offerHeld_law (b : BayNo) {ev : BayEvent} (hev : ev ≠ .command) {s : State} (h : CommandLaw s) :
    CommandLaw (offerHeld b ev s) := by
  unfold offerHeld
  simp only []
  split
  · refine h.setBay rfl ?_ h.updating
    simpa [h.held b] using hev.symm
  · rename_i hl
    split
    · exact h.setWaiting (count_append_ne hev _)
    · exact h.calm (startEvent_calm hev (eq_false_of_ne_true hl))

theorem offerFrame_law (x : HandedFrame) {s : State} (h : CommandLaw s) : CommandLaw (offerFrame x s) := by
  unfold offerFrame
  simp only []
  split
  · have hset : CommandLaw (s.setBay x.bay { s.bay x.bay with deferred := some x }).clearHandOff :=
      (h.setBay (e := { s.bay x.bay with deferred := some x }) rfl (h.held _) h.updating).of_same rfl rfl rfl rfl rfl rfl rfl
    split
    · exact hset.of_same rfl rfl rfl rfl rfl rfl rfl
    · exact hset
  · rename_i hl
    split
    · exact h.setWaiting (count_append_ne (by simp) _)
    · exact h.calm (startEvent_calm (by simp) (eq_false_of_ne_true hl))

theorem offerCommand_law {b : BayNo} {s : State} (h : InHand s)
    (named : ∀ cmd, s.mailbox.current = some cmd → cmd.code.toNat ∈ [6, 7, 8, 9, 10, 12]
      ∧ (cmd.code = 7 → ∃ t ∈ s.link.tagMap, t.radio.toNat = cmd.a.toNat ∧ t.bay = b)) :
    CommandLaw (offerCommand b s) := by
  unfold offerCommand
  simp only []
  split
  · rename_i hl
    refine (h.of_same (t := s.setProgress (.awaitsUnlock b)) rfl rfl rfl rfl rfl).commandLaw nofun nofun nofun nofun ?_ nofun
    intro c hc
    cases hc
    exact ⟨hl, named⟩
  · rename_i hl
    split
    · refine h.waits ?_ (h.free b).2 named
      rw [List.count_append, List.count_eq_zero.2 (h.free b).1]
      rfl
    · exact turnCommand_law (h.of_same (t := s.setProgress (.awaitsTurn b)) rfl rfl rfl rfl rfl)
        (eq_false_of_ne_true hl) fun cmd hcur => (named cmd hcur).1

/-! ## The end of an update, and the release of the lock -/

/-- A command that is current and in no list is in hand. -/
theorem CommandLaw.inHand_of {s : State} (h : CommandLaw s) (hnone : s.mailbox.progress ≠ .none)
    (hfin : s.mailbox.progress ≠ .finished) (hturn : ∀ b, s.mailbox.progress ≠ .awaitsTurn b) : InHand s := by
  obtain ⟨hm, hb⟩ := (commandLaw_iff s).1 h
  have hbusy := hm.progress.2 hnone
  have hres := mt hm.finished.2 hfin
  simp only [not_or, Bool.not_eq_true] at hres
  exact ⟨hbusy, hm.current.1 hbusy, hres.1, hres.2, fun b => ⟨mt (hb b).turn.2 (hturn b), (hb b).held⟩⟩

theorem setInFlight_inHand {s : State} {b : BayNo} (h : InHand s) (f : Bool) :
    InHand (s.setBay b { s.bay b with inFlight := f }) := by
  refine ⟨h.busy, h.current, h.unfinished, h.unshown, fun c => ?_⟩
  rw [setBay_bay]
  split
  · rename_i he
    subst he
    exact h.free b
  · exact h.free c

theorem endUpdate_law (b : BayNo) {s : State} (h : CommandLaw s) : CommandLaw (endUpdate b s) := by
  unfold endUpdate
  simp only []
  refine (CommandLaw.calm (turn_law ?_) (act_calm _ _)).calm (fetchJudge_calm _)
  unfold finishUpdating
  split
  · rename_i hp
    have hp : s.mailbox.progress = .updating b := hp
    have hand := h.inHand_of (by rw [hp]; nofun) (by rw [hp]; nofun) (by rw [hp]; nofun)
    exact (setInFlight_inHand hand false).finish .ok
  · rename_i hp
    exact h.setBay rfl (h.held b) fun hu => absurd hu hp

theorem released_count (e : BayEntry) (c : Bool) (hh : .command ∉ e.held) :
    (releasedEvents e c).count .command = if c then 1 else 0 := by
  have hd : ((e.deferred.map BayEvent.deferredFrame).toList).count .command = 0 := by
    cases e.deferred <;> simp
  simp only [releasedEvents, List.count_append, hd, List.count_eq_zero.2 hh]
  cases c <;> rfl

theorem unlocked_law (l : BayLock) {s : State} (hl : s.access.lock = some l) (ho : OrderedBut none s) (h : CommandLaw s) :
    CommandLaw (unlocked l.bay { s with access := { s.access with lock := none } }) := by
  have hwait : (s.bay l.bay).waiting = [] := (ho.2 l.bay).1 nofun (ho.1 l hl)
  obtain ⟨hm, hb⟩ := (commandLaw_iff s).1 h
  unfold unlocked
  simp only []
  refine (CommandLaw.calm (turn_law ?_) (act_calm _ _)).calm (wantRewrite_calm _)
  by_cases hp : s.mailbox.progress = .awaitsUnlock l.bay
  · have hand := h.inHand_of (by rw [hp]; nofun) (by rw [hp]; nofun) (by rw [hp]; nofun)
    simp only [hp, BEq.rfl, if_true]
    refine InHand.waits (s := { s with access := { s.access with lock := none } })
      (hand.of_same rfl rfl rfl rfl rfl) (released_count _ _ (h.held l.bay)) (by simp) fun cmd hcur => ?_
    exact (hb l.bay).named cmd (.inr hp) hcur
  · have hc : (s.mailbox.progress == Progress.awaitsUnlock l.bay) = false := by simpa using hp
    simp only [hc, Bool.false_eq_true, if_false]
    have hother : ∀ c, s.mailbox.progress ≠ .awaitsUnlock c := fun c hpc => by
      have := (hb c).unlock hpc
      obtain ⟨y, hy, hyb⟩ := locked_lock this
      rw [hl, Option.some.injEq] at hy
      exact hp (by rw [hpc, ← hyb, hy])
    have hopen : CommandLaw { s with access := { s.access with lock := none } } :=
      (commandLaw_iff _).2 ⟨⟨hm.current, hm.progress, hm.finished, hm.once, hm.halting⟩, fun c =>
        ⟨(hb c).turn, (hb c).count, (hb c).held, fun hpc => absurd hpc (hother c), (hb c).updating, (hb c).named⟩⟩
    refine hopen.setBay ?_ (by simp) (hb l.bay).updating
    exact (released_count _ _ (h.held l.bay)).trans (congrArg (List.count BayEvent.command) hwait).symm

/-! ## Commands -/

/-- A command word is taken while the mailbox is not BUSY, and the command is in hand. -/
theorem takeCommand_inHand {cmd : Command} {s : State} (h : CommandLaw s) (hopen : s.mailbox.state ≠ .busy) :
    InHand (s.takeCommand cmd) := by
  obtain ⟨hm, hb⟩ := (commandLaw_iff s).1 h
  have hnone : s.mailbox.progress = .none := by
    by_contra hp
    exact hopen (hm.progress.2 hp)
  have hres := mt hm.finished.2 (by rw [hnone]; nofun)
  simp only [not_or, Bool.not_eq_true] at hres
  have hstatus : (s.takeCommand cmd).status.resultPending = s.status.resultPending
      ∧ (s.takeCommand cmd).status.presented = s.status.presented := by
    simp only [State.takeCommand, State.leaveDone]
    split <;> exact ⟨rfl, rfl⟩
  refine ⟨rfl, nofun, hstatus.1.trans hres.1, ?_, fun b => ?_⟩
  · simpa only [State.resultPresented, hstatus.2] using hres.2
  · have hbay : (s.takeCommand cmd).bay b = s.bay b := by simp only [State.bay, takeCommand_bays]
    rw [hbay]
    refine ⟨fun hc => ?_, (hb b).held⟩
    have := (hb b).turn.2 hc
    rw [hnone] at this
    cases this

theorem Configured.inHand {s u : State} (h : Configured s u) (hs : InHand s) : InHand u := by
  rw [h.rest]
  exact hs.of_same rfl rfl rfl rfl rfl

theorem Ran.commandLaw {cmd : Command} {s t : State} (h : Ran cmd s t) (hs : InHand s)
    (hcur : s.mailbox.current = some cmd) : CommandLaw t := by
  cases h with
  | settles u r own => exact (own.inHand hs).finish r
  | rewrites u r own =>
    exact ((own.inHand hs).of_same (t := u.wantRewrite) rfl rfl rfl rfl rfl).finish r
  | feeds f u own => exact ((own.inHand hs).finish .ok).calm (act_calm f _)
  | halts u own halted =>
    exact ((own.inHand hs).of_same (t := u.wantRewrite.setProgress .halting) rfl rfl rfl rfl rfl).commandLaw nofun nofun nofun
      (fun _ => halted) nofun nofun
  | reaches b code named =>
    refine offerCommand_law hs fun x hx => ?_
    rw [hcur, Option.some.injEq] at hx
    subst hx
    exact ⟨code, named⟩

theorem takeAndRun_law (code : Word) {s : State} (h : CommandLaw s) (hopen : s.mailbox.state ≠ .busy) :
    CommandLaw (takeAndRun code s) :=
  (runCommand_ran _ _).commandLaw (takeCommand_inHand h hopen) (takeCommand_current _ s)

theorem acknowledge_law {s : State} (h : CommandLaw s) : CommandLaw (acknowledge s) := by
  unfold acknowledge
  split
  · rename_i hd
    obtain ⟨hm, hb⟩ := (commandLaw_iff s).1 h
    have hnb : s.mailbox.state ≠ .busy := by rw [hd]; nofun
    refine (commandLaw_iff _).2 ⟨⟨⟨nofun, fun hc => absurd (hm.current.2 hc) hnb⟩,
      ⟨nofun, fun hp => absurd (hm.progress.2 hp) hnb⟩, hm.finished, hm.once, hm.halting⟩, fun c => ?_⟩
    exact ⟨(hb c).turn, (hb c).count, (hb c).held, (hb c).unlock, (hb c).updating, (hb c).named⟩
  · exact h

end Sys2Proof.Machine

/-! PROOFS. R187-R190, continued: every change of a step keeps the law of the commands. -/

namespace Sys2Proof.Machine

/-! ## Requests -/

theorem Answer.commandLaw {r : Request} {s t : State} (h : Answer r s t) (hs : CommandLaw s) : CommandLaw t := by
  cases h with
  | delays =>
    refine CommandLaw.of_same (s := s.addEntry (readKey r)) ?_ rfl rfl rfl rfl rfl rfl rfl
    unfold State.addEntry
    split
    · exact hs
    · exact hs.of_same rfl rfl rfl rfl rfl rfl rfl
  | acknowledges => exact (acknowledge_law hs).of_same rfl rfl rfl rfl rfl rfl rfl
  | commands code open_ => exact (takeAndRun_law code hs open_).of_same rfl rfl rfl rfl rfl rfl rfl
  | locks b _ unlocked =>
    obtain ⟨hm, hb⟩ := (commandLaw_iff s).1 hs
    refine (commandLaw_iff _).2 ⟨⟨hm.current, hm.progress, hm.finished, hm.once, hm.halting⟩, fun c => ?_⟩
    refine ⟨(hb c).turn, (hb c).count, (hb c).held, fun hp => ?_, (hb c).updating, (hb c).named⟩
    have := (hb c).unlock hp
    simp [State.locked, unlocked] at this
  | sets b x =>
    exact (hs.setBay (e := { s.bay b with settings := x }) rfl (hs.held b) hs.updating).of_same rfl rfl rfl rfl rfl rfl rfl
  | completes | queues | delivers | passes | consumes => exact hs.of_same rfl rfl rfl rfl rfl rfl rfl

theorem finishRequest_still (r : Request) (data : List Word) (s : State) (p : Path) :
    Still s (finishRequest r data s p) := by
  cases p with
  | plain | commandWord | consumerIndex | settings b => exact .of_same rfl rfl rfl rfl rfl
  | argument x => cases x <;> exact ⟨rfl, rfl, rfl, rfl, rfl, rfl, fun x hx => ⟨x, hx, rfl, rfl⟩⟩
  | bayRead b overtaken =>
    simp only [finishRequest, rejudgeRead, State.addEntry]
    split_ifs <;> exact .of_same rfl rfl rfl rfl rfl

/-! ## The Status Writer (R190, R195) -/

/-- What the law reads of the Status Writer, where the mailbox is left. -/
theorem MailboxLaw.of_status {s t : State} (h : MailboxLaw s) (hm : t.mailbox = s.mailbox) (hd : t.decoder = s.decoder)
    (hres : (t.status.resultPending = true ∨ t.resultPresented = true)
      ↔ (s.status.resultPending = true ∨ s.resultPresented = true))
    (honce : t.status.resultPending = true → t.resultPresented = false) : MailboxLaw t where
  current := by rw [hm]; exact h.current
  progress := by rw [hm]; exact h.progress
  finished := by rw [hm, hres]; exact h.finished
  once := honce
  halting := by rw [hm, hd]; exact h.halting

theorem CommandLaw.of_status {s t : State} (h : CommandLaw s) 
    (ht : t = { s with status := t.status, arbiter := t.arbiter, mem := t.mem, pins := t.pins })
    (hres : (t.status.resultPending = true ∨ t.resultPresented = true)
      ↔ (s.status.resultPending = true ∨ s.resultPresented = true))
    (honce : t.status.resultPending = true → t.resultPresented = false) : CommandLaw t := by
  obtain ⟨hm, hb⟩ := (commandLaw_iff s).1 h
  refine (commandLaw_iff t).2 ⟨hm.of_status (by rw [ht]) (by rw [ht]) hres honce, fun b => ?_⟩
  rw [ht]
  exact ⟨(hb b).turn, (hb b).count, (hb b).held, (hb b).unlock, (hb b).updating, (hb b).named⟩

theorem CommandLaw.once {s : State} (h : CommandLaw s) : s.status.resultPending = true → s.resultPresented = false :=
  ((commandLaw_iff s).1 h).1.once

/-- The pending result word is presented. -/
theorem presentResult_law {s : State} (h : CommandLaw s) (hp : s.status.resultPending = true) :
    CommandLaw (presentResult s) :=
  h.of_status (by rfl) (by simp [presentResult, State.resultPresented, hp]) (by simp [presentResult])

/-- A block of a rewrite is presented while nothing is. -/
theorem presentBlock_law {s : State} (h : CommandLaw s) (n : Nat) (hs : s.resultPresented = false) :
    CommandLaw (presentBlock s n) :=
  h.of_status (by rfl) (by simp [presentBlock, State.resultPresented] at hs ⊢; simp [hs]) (by simp [presentBlock, State.resultPresented])

theorem statusSettle_law {s : State} (h : CommandLaw s) : CommandLaw (statusSettle s) := by
  unfold statusSettle
  split
  · unfold beginUnderBurst
    split
    · exact h.of_same rfl rfl rfl rfl rfl rfl rfl
    · exact h
  · rename_i hp
    have hs : s.resultPresented = false := by
      have hnone : s.status.presented = none := by simpa using hp
      simp [State.resultPresented, hnone]
    split
    · split
      · rename_i hr
        exact presentResult_law h hr
      · exact presentBlock_law h _ hs
    · split
      · exact presentBlock_law (s := { s with
          status := { s.status with wanted := false, generation := s.status.generation + 1 } })
          (h.of_same rfl rfl rfl rfl rfl rfl rfl) 1 hs
      · split
        · rename_i hr
          exact presentResult_law h hr
        · exact h

theorem presentPending_law {s : State} (h : CommandLaw s) : CommandLaw s.presentPending := by
  unfold State.presentPending
  split
  · rename_i hr
    exact presentResult_law h hr
  · exact h

theorem afterBlock_law {s : State} (h : CommandLaw s) (n : Nat) : CommandLaw (s.afterBlock n) := by
  unfold State.afterBlock State.endRewrite
  split <;> exact h.of_same rfl rfl rfl rfl rfl rfl rfl

theorem blockEnds_law {s : State} {n : Nat} {ws : List Word} (h : CommandLaw s)
    (hs : s.status.presented = some (.block n ws)) :
    CommandLaw (((s.endBurst .status).clearPresented).afterBlock n).presentPending := by
  refine presentPending_law (afterBlock_law ?_ n)
  refine h.of_status (by rfl) ?_ ?_ <;> simp [State.clearPresented, State.endBurst, State.resultPresented, hs]

/-- The result word is written: the command is no longer current (R190). -/
theorem resultEnds_law {s : State} {w : Word} (h : CommandLaw s) (hs : s.status.presented = some (.result w)) :
    CommandLaw ((s.endBurst .status).clearPresented).commandDone := by
  obtain ⟨hm, hb⟩ := (commandLaw_iff s).1 h
  have hshown : s.resultPresented = true := (resultPresented_iff s).2 ⟨w, hs⟩
  have hfin := hm.finished.2 (.inr hshown)
  have hpend : s.status.resultPending = false := by
    by_contra hp
    have := hm.once (by simpa using hp)
    simp [hshown] at this
  refine (commandLaw_iff _).2 ⟨⟨⟨nofun, fun hc => absurd rfl hc⟩, ⟨nofun, fun hc => absurd rfl hc⟩, ⟨nofun, fun hr => ?_⟩,
    fun _ => rfl, nofun⟩, fun c => ?_⟩
  · rcases hr with hr | hr
    · exact absurd (hpend.symm.trans hr) (by decide)
    · cases hr
  · refine ⟨⟨nofun, fun hc => ?_⟩, (hb c).count, (hb c).held, nofun, nofun, ?_⟩
    · have := (hb c).turn.2 hc
      rw [hfin] at this
      cases this
    · rintro cmd (hp | hp) <;> cases hp

/-! ## The other changes -/

theorem completeHalt_law {s : State} (h : CommandLaw s) (hd : s.haltDue = true) : CommandLaw (completeHalt s) := by
  simp only [State.haltDue, Bool.and_eq_true, beq_iff_eq] at hd
  obtain ⟨⟨hp, -⟩, -⟩ := hd
  have hand := h.inHand_of (by rw [hp]; nofun) (by rw [hp]; nofun) (by rw [hp]; nofun)
  exact (hand.of_same (t := s.wantRewrite) rfl rfl rfl rfl rfl).finish .ok

theorem claim_still (s : State) (x : Source) : Still s (claim s x) := by
  cases x <;> exact .of_same rfl rfl rfl rfl rfl

theorem raiseFeeder_still (f : FeederNo) (c : Condition) (s : State) : Still s (raiseFeeder f c s) := by
  unfold raiseFeeder
  split
  · exact .refl s
  · exact .of_same rfl rfl rfl rfl rfl

theorem setFeeder_still (f : FeederNo) (x : Feeder) (s : State) : Still s (s.setFeeder f x) := .of_same rfl rfl rfl rfl rfl

theorem becomeActive_calm (f : FeederNo) (s : State) : Calm s (becomeActive f s) := by
  refine ⟨becomeActive_grows f s, ?_⟩
  unfold becomeActive
  simp only []
  refine .trans ?_ (act_calm f _).2
  exact ((setFeeder_still f _ s).trans (raiseFeeder_still f _ _)).trans (wantRewrite_calm _).2

theorem revokeOne_still (f : FeederNo) (s : State) (b : BayNo) : Still s (revokeOne f s b) := .of_same rfl rfl rfl rfl rfl

theorem foldl_law {α : Type} {g : State → α → State} (h : ∀ s a, CommandLaw s → CommandLaw (g s a)) (l : List α) {s : State}
    (hs : CommandLaw s) : CommandLaw (l.foldl g s) := by
  induction l generalizing s with
  | nil => exact hs
  | cons a rest ih => exact ih (h s a hs)

theorem tripFeeder_law (f : FeederNo) {s : State} (hs : CommandLaw s) : CommandLaw (tripFeeder f s) := by
  simp only [tripFeeder]
  refine foldl_law (fun u b hu => offerHeld_law b (by simp) hu) _ ?_
  have hrevoked := foldl_law (fun u b hu => hu.calm ⟨revokeOne_grows f u b, revokeOne_still f u b⟩) (s.feeder f).grants hs
  generalize (s.feeder f).grants.foldl (revokeOne f) s = u at hrevoked
  generalize Feeder.trip _ _ _ _ = x
  have hset : CommandLaw (u.setFeeder f x) := hrevoked.of_same rfl rfl rfl rfl rfl rfl rfl
  exact (hset.calm ⟨raiseFeeder_grows f _ _, raiseFeeder_still f _ _⟩).calm (wantRewrite_calm _)

theorem timerExpires_law (b : BayNo) (t : BayTimer) {s : State} (hs : CommandLaw s) : CommandLaw (timerExpires b t s) := by
  refine offerHeld_law b (by simp) ?_
  obtain ⟨hl, hf⟩ := putTimer_lists (s.bay b) t (.expired ((s.bay b).timer t).length)
  exact hs.calm ⟨setBay_grows hl hf, .of_same rfl rfl rfl rfl rfl⟩

theorem Taken.calm {s u : State} (h : Taken s u) (hn : (s.link.tagMap.map TagEntry.radio).Nodup) : Calm s u := by
  obtain ⟨⟨g, hg, hr, hb⟩, -, hrest⟩ := h
  refine ⟨by rw [hrest]; exact .of_same rfl rfl, ?_⟩
  have hmapped : ∀ x ∈ s.link.tagMap, ∃ y ∈ u.link.tagMap, y.radio = x.radio ∧ y.bay = x.bay := fun x hx =>
    ⟨g x, by rw [hg]; exact List.mem_map_of_mem hx, hr x, hb hn x hx⟩
  have hm : u.mailbox = s.mailbox := by rw [hrest]
  exact ⟨by rw [hm], by rw [hm], by rw [hm], by rw [hrest], by rw [hrest]; rfl, by rw [hrest], hmapped⟩

theorem takeEntry_law (e : InboxEntry) {s : State} (hn : (s.link.tagMap.map TagEntry.radio).Nodup) (hs : CommandLaw s) :
    CommandLaw (takeEntry e s) := by
  obtain ⟨u, hu, ht⟩ := takeEntry_handsOn e s
  have hsame := hs.calm (hu.calm hn)
  rcases ht with ht | ⟨h, ht⟩ <;> rw [ht]
  · exact hsame
  · exact offerFrame_law h (hsame.of_same rfl rfl rfl rfl rfl rfl rfl)

theorem passPeriods_still (n : Nat) (s : State) : Still s (passPeriods n s) := .of_same rfl rfl rfl rfl rfl

theorem yardTick_still (s : State) : Still s (yardTick s) := by
  unfold yardTick counterRewrite tickTimers
  split_ifs <;> exact .of_same rfl rfl rfl rfl rfl

theorem finishFetch_still (x : Fetch) (s : State) : Still s (finishFetch x s) := by
  simp only [finishFetch]
  refine .trans ?_ (fetchJudge_calm _).2
  split <;> exact .of_same rfl rfl rfl rfl rfl

theorem blank_law (p : List Instr) (pins : Pins) (m : Memory) (n : Nat) : CommandLaw (State.blank p pins m n) := by
  refine (commandLaw_iff _).2 ⟨⟨⟨nofun, fun hc => absurd rfl hc⟩, ⟨nofun, fun hc => absurd rfl hc⟩, ⟨nofun, ?_⟩, nofun, nofun⟩,
    fun c => ?_⟩
  · rintro (hr | hr) <;> cases hr
  · refine ⟨?_, ?_, ?_, nofun, nofun, ?_⟩
    · rw [blank_bay]
      exact ⟨nofun, nofun⟩
    · rw [blank_bay]
      exact Nat.zero_le 1
    · rw [blank_bay]
      exact nofun
    · rintro cmd (hp | hp) <;> cases hp

/-- Every change keeps the law of the commands, where the events are in order and each radio is mapped once. -/
theorem Change.commandLaw {s t : State} (h : Change s t) (ho : OrderedBut none s)
    (hn : (s.link.tagMap.map TagEntry.radio).Nodup) (hs : CommandLaw s) : CommandLaw t := by
  cases h with
  | queue | line | counts | clearsAnswer | grantsPort | reclaims | noticeEnds | firstBurstEnds | restores =>
    exact hs.of_same rfl rfl rfl rfl rfl rfl rfl
  | resetFalls => exact blank_law _ _ _ _
  | resetReleases memsize =>
    exact (blank_law s.pending { s.pins with resetN := true, memsize := memsize, attnN := true } s.mem
      s.freeUsed).of_same rfl rfl rfl rfl rfl rfl rfl
  | claims x => exact hs.calm ⟨claim_grows s x, claim_still s x⟩
  | presents => exact statusSettle_law hs
  | haltCompletes _ due => exact completeHalt_law hs due
  | unlocks l _ held => exact unlocked_law l held ho hs
  | answers r => exact (answer_cases r s).commandLaw hs
  | requestEnds o =>
    exact CommandLaw.calm (s := s.endBurst .passThrough) (hs.of_same rfl rfl rfl rfl rfl rfl rfl)
      ⟨finishRequest_grows _ _ _ _, finishRequest_still _ _ _ _⟩
  | updateEnds x => exact endUpdate_law _ (hs.of_same rfl rfl rfl rfl rfl rfl rfl)
  | blockEnds n ws _ shown => exact blockEnds_law hs shown
  | resultEnds w _ shown => exact resultEnds_law hs shown
  | fetchEnds x => exact hs.calm ⟨finishFetch_grows x s, finishFetch_still x s⟩
  | takes e rest => exact takeEntry_law e hn (hs.of_same rfl rfl rfl rfl rfl rfl rfl)
  | expires b x => exact timerExpires_law b x hs
  | activates f => exact hs.calm (becomeActive_calm f s)
  | trips f => exact tripFeeder_law f hs
  | passes n => exact hs.calm ⟨passPeriods_grows n s, passPeriods_still n s⟩
  | ticks => exact hs.calm ⟨yardTick_grows s, yardTick_still s⟩

end Sys2Proof.Machine

/-! PROOFS. R81, R109: a grant is of the assigned feeder, and a bay that holds no grant has no grant feeder, whatever the change
of an update. -/

namespace Sys2Proof.Machine

/-- A grant is of the assigned feeder, and a bay that holds none has no grant feeder (R81). -/
def BayEntry.Sound (e : BayEntry) : Prop := ∀ f, e.defrost.grantFeeder = some f → e.defrost.state.granted = true ∧ e.feeder = f

/-- A change that keeps the grant feeder sound. -/
def Sounds (w w' : Work) : Prop := w.bay.Sound → w'.bay.Sound

theorem Sounds.refl (w : Work) : Sounds w w := id

theorem Sounds.trans {w w' w'' : Work} (h : Sounds w w') (h' : Sounds w' w'') : Sounds w w'' := fun hs => h' (h hs)

theorem Sounds.ite {w w' w'' : Work} {c : Prop} [Decidable c] (h : c → Sounds w w') (h' : ¬ c → Sounds w w'') :
    Sounds w (if c then w' else w'') := by
  split
  · rename_i hc; exact h hc
  · rename_i hc; exact h' hc

/-- A change that keeps the state, the grant feeder and the assigned feeder. -/
theorem Sound.of_same {e e' : BayEntry} (h : e.Sound) (hs : e'.defrost.state = e.defrost.state)
    (hg : e'.defrost.grantFeeder = e.defrost.grantFeeder) (hf : e'.feeder = e.feeder) : e'.Sound := by
  unfold BayEntry.Sound at *
  rwa [hs, hg, hf]

theorem Stays.sounds {w w' : Work} (h : Stays w w') : Sounds w w' :=
  fun hs => Sound.of_same hs h.state h.grantFeeder h.feeder

theorem Sound.of_none {e : BayEntry} (h : e.defrost.grantFeeder = none) : e.Sound := fun f hf => by
  rw [h] at hf
  cases hf

theorem BayEntry.Sound.none {e : BayEntry} (h : e.Sound) (hg : e.defrost.state.granted = false) :
    e.defrost.grantFeeder = none := by
  cases hf : e.defrost.grantFeeder with
  | none => rfl
  | some f =>
    have := (h f hf).1
    rw [hg] at this
    cases this

/-- Leaving for a state and entering it keeps the grant feeder within granted states and drops it outside them. -/
theorem leave_enter_sounds (p : Params) (new : DefrostState) (w : Work) : Sounds w ((w.leave new).enter p new) := by
  intro hs
  obtain ⟨-, hgf, hb⟩ := leave_spec new w
  obtain ⟨-, hst, -, hgf', hb'⟩ := enter_spec p new (w.leave new)
  intro f hf
  have hgrant : new ≠ .idle ∧ (w.leave new).bay.defrost.grantFeeder = some f := by
    rw [hgf'] at hf
    split at hf
    · cases hf
    · rename_i hi
      exact ⟨hi, hf⟩
  rw [hgf] at hgrant
  obtain ⟨-, hgrant⟩ := hgrant
  split at hgrant
  · cases hgrant
  · rename_i hkeep
    obtain ⟨hg, hfeeder⟩ := hs f hgrant
    rw [hg] at hkeep
    exact ⟨by rw [hst]; simpa using hkeep, by rw [hb', hb, hfeeder]⟩

theorem moveTo_sounds (p : Params) (new : DefrostState) (w : Work) : Sounds w (w.moveTo p new) := leave_enter_sounds p _ w

theorem moveTo_due (p : Params) (w : Work) : (w.moveTo p .due).bay.defrost.state = .due := by
  have hmove : w.moveTo p .due = (w.leave .due).enter p .due := by simp [Work.moveTo]
  rw [hmove]
  exact (enter_spec p .due (w.leave .due)).2.1

theorem routePower_sounds (c : Ctx) {w : Work} (hd : w.bay.defrost.state = .due) : Sounds w (w.routePower c) := by
  intro hs
  have hnone := hs.none (by rw [hd]; rfl)
  unfold Work.routePower
  simp only []
  split_ifs
  · exact Sound.of_none hnone
  · refine Sound.of_none ?_
    rw [(enter_spec c.params .ordered _).2.2.2.1]
    rfl
  · exact Sound.of_none hnone

theorem enterDue_sounds (c : Ctx) (w : Work) : Sounds w (w.enterDue c) :=
  (moveTo_sounds _ _ w).trans (routePower_sounds c (moveTo_due _ w))

theorem demand_sounds (c : Ctx) (w : Work) : Sounds w (w.demand c) :=
  .trans (w' := w.defrost { w.bay.defrost with iceCount := 0 }) id (enterDue_sounds c _)

theorem reroute_sounds (c : Ctx) {w : Work} (hd : w.bay.defrost.state = .due) : Sounds w (w.reroute c) := by
  unfold Work.reroute
  simp only []
  refine .ite (fun _ => .ite (fun _ => .refl w) fun _ => ?_) fun _ => routePower_sounds c hd
  exact .trans (w' := (w.defrost { w.bay.defrost with reason := .held }).report (.leaveQueue w.bay.feeder)) id
    (routePower_sounds c hd)

theorem unordered_sounds (c : Ctx) (w : Work) : Sounds w (w.unordered c) :=
  (stays_raises w _ _).sounds.trans (moveTo_sounds _ _ _)

theorem defrostEnds_sounds (c : Ctx) (w : Work) : Sounds w (w.defrostEnds c) :=
  .trans (w' := w.defrost { w.bay.defrost with lastEnd := some w.bay.reading.arrival, attempts := 0 }) id
    (moveTo_sounds _ _ _)

theorem stageLateStart_sounds (c : Ctx) (w : Work) : Sounds w (w.stageLateStart c) := by
  unfold Work.stageLateStart
  simp only []
  refine .ite (fun _ => .ite (fun _ _ => ?_) fun _ => unordered_sounds c w) fun _ =>
    .ite (fun _ _ => moveTo_sounds _ _ _ (Sound.of_none rfl)) fun _ => unordered_sounds c w
  obtain ⟨-, hst, -, hg, hb⟩ := enter_spec c.params .running
    ((w.defrost { w.bay.defrost with reason := .queued, grantFeeder := some w.bay.feeder }).report
      (.directGrant w.bay.feeder))
  intro f hf
  rw [hg] at hf
  refine ⟨by rw [hst]; rfl, ?_⟩
  rw [hb]
  exact Option.some.inj hf

theorem stageOrdered_sounds (c : Ctx) (w : Work) : Sounds w (w.stageOrdered c) :=
  .ite (fun _ => moveTo_sounds _ _ w) fun _ =>
    .ite (fun _ => .ite (fun _ => moveTo_sounds _ _ w) fun _ => (stays_raises w _ _).sounds.trans (moveTo_sounds _ _ _))
      fun _ => .refl w

theorem defrostStage_sounds (c : Ctx) (w : Work) : Sounds w (w.defrostStage c) := by
  refine .trans (w' := w.countIce) id ?_
  unfold Work.defrostStage
  generalize w.countIce = u
  simp only []
  split
  · exact .ite (fun _ => unordered_sounds c u) fun _ => .ite (fun _ => demand_sounds c u) fun _ => .refl u
  · exact .ite (fun _ => unordered_sounds c u) fun _ => .refl u
  · rename_i hd
    exact .ite (fun _ => .ite (fun _ => stageLateStart_sounds c u) fun _ => unordered_sounds c u) fun _ =>
      reroute_sounds c hd
  · exact stageOrdered_sounds c u
  · exact .ite (fun _ => defrostEnds_sounds c u) fun _ => .ite (fun _ => moveTo_sounds _ _ u) fun _ => .refl u
  · exact .ite (fun _ => defrostEnds_sounds c u) fun _ => .refl u
  · exact .ite (fun _ => defrostEnds_sounds c u) fun _ => .refl u

theorem storeStage_sounds (c : Ctx) (h : HandedFrame) (w : Work) : Sounds w (w.storeStage c h) := by
  unfold Work.storeStage Work.resume
  simp only []
  split <;> exact id

theorem evaluate_sounds (c : Ctx) (h : HandedFrame) (w : Work) : Sounds w (w.evaluate c h) :=
  (((storeStage_sounds c h w).trans (fuelStage_stays _).sounds).trans (defrostStage_sounds c _)).trans
    (doorStage_stays _ _).sounds

theorem expires_sounds (c : Ctx) (t : BayTimer) (w : Work) : Sounds w (w.expires c t) := by
  cases t with
  | silence | door => exact id
  | defrost =>
    simp only [Work.expires]
    split
    · refine .ite (fun _ hs => ?_) fun _ hs => ?_
      · exact enterDue_sounds c _ (Sound.of_same hs (by rfl) (by rfl) (by rfl))
      · exact moveTo_sounds _ _ _ (Sound.of_same hs (by rfl) (by rfl) (by rfl))
    · exact (moveTo_sounds _ _ w).trans (stays_raises _ _ _).sounds
    · exact (stays_raises w _ _).sounds.trans (moveTo_sounds _ _ _)
    · exact moveTo_sounds _ _ w
    all_goals exact .refl w

theorem cancel_sounds (c : Ctx) (w : Work) : Sounds w (w.cancel c) := by
  have hmove : ∀ new, Sounds w ((w.defrost { w.bay.defrost with lastEnd := some c.now }).moveTo c.params new) := fun new =>
    .trans (w' := w.defrost { w.bay.defrost with lastEnd := some c.now }) id (moveTo_sounds _ _ _)
  unfold Work.cancel
  simp only []
  split
  · exact hmove _
  · exact .ite (fun _ => hmove _) fun _ => hmove _
  · exact hmove _
  · exact .trans (w' := w.defrost { w.bay.defrost with lastEnd := some c.now }) id (stays_pendOrder _ _ _).sounds
  all_goals exact .refl w

theorem Begun.sound {s : State} {b : BayNo} {w : Work} (h : Begun s b w) (hs : (s.bay b).Sound) : w.bay.Sound := by
  have h0 : (startWork b s).bay.Sound := hs
  cases h with
  | expiry t => exact expires_sounds _ t _ h0
  | revocation => exact h0
  | frame x => exact evaluate_sounds _ x _ h0
  | loading on => exact (setLoading_stays _ on _).sounds h0
  | forced => exact demand_sounds _ _ h0
  | cancelled => exact cancel_sounds _ _ h0
  | assigned f _ forcible =>
    refine Sound.of_none (h0.none ?_)
    show (s.bay b).defrost.state.granted = false
    cases hst : (s.bay b).defrost.state <;> simp_all [DefrostState.forcible, DefrostState.granted]

end Sys2Proof.Machine

/-! PROOFS. R107-R109, R158: what keeps the Feeder Table in step with the places of the bays, and the order list with the
orders pending. -/

namespace Sys2Proof.Machine

/-! ## The Feeder Table against the places of the bays -/

/-- The place among the self-started of feeder `f`. -/
def Place.isSelf (f : FeederNo) : Place → Bool
  | .self g => g == f
  | .nowhere | .grant _ | .queue _ => false

/-- The number of bays placed among the self-started of a feeder. -/
def selfs (p : BayNo → Place) (f : FeederNo) : Nat := (Finset.univ.filter fun b => (p b).isSelf f = true).card

/-- The entry of feeder `f` lists the bays by their places (R107-R109). -/
structure Fits (x : Feeder) (f : FeederNo) (p : BayNo → Place) : Prop where
  grants : x.grants.Nodup
  granted : ∀ b, b ∈ x.grants ↔ p b = .grant f
  queue : (x.queue.map Prod.fst).Nodup
  queued : ∀ b, b ∈ x.queue.map Prod.fst ↔ p b = .queue f
  count : x.selfCount = selfs p f

/-- Every entry of the Feeder Table lists the bays by their places. -/
def Listed (s : State) (p : BayNo → Place) : Prop := ∀ f, Fits (s.feeder f) f p

/-- The places the entries of a state's bays ask for. -/
def State.places (s : State) (b : BayNo) : Place := (s.bay b).place

theorem place_grant_iff (e : BayEntry) (f : FeederNo) :
    e.place = .grant f ↔ e.defrost.state.granted = true ∧ e.defrost.grantFeeder = some f := by
  unfold BayEntry.place
  cases e.defrost.state <;> cases e.defrost.grantFeeder <;> simp [DefrostState.granted] <;> split <;> simp

theorem place_queue_iff (e : BayEntry) (f : FeederNo) :
    e.place = .queue f ↔ e.defrost.state = .due ∧ e.defrost.reason = .queued ∧ e.feeder = f := by
  unfold BayEntry.place
  cases e.defrost.state <;> cases e.defrost.grantFeeder <;> simp <;> split <;> simp_all

theorem place_isSelf (e : BayEntry) (f : FeederNo) : e.place.isSelf f = (e.defrost.state == .self && e.feeder == f) := by
  unfold BayEntry.place
  cases e.defrost.state with
  | due => by_cases hq : e.defrost.reason = .queued <;> simp [hq, Place.isSelf]
  | ordered | running | stopping => cases e.defrost.grantFeeder <;> rfl
  | self | idle | draining => rfl

theorem bays_toList (s : State) : s.bays.toList = (List.finRange 160).map s.bay := by
  refine List.ext_getElem (by simp) fun i h h' => ?_
  simp [State.bay]

theorem countP_bays (s : State) (q : BayEntry → Bool) :
    s.bays.toList.countP q = (Finset.univ.filter fun b => q (s.bay b) = true).card := by
  rw [bays_toList, List.countP_map]
  simp [Finset.card, Finset.filter, Fin.univ_def, List.countP_eq_length_filter]
  rfl

theorem feedersAgree_iff (s : State) : FeedersAgree s ↔ Listed s s.places ∧ ∀ b, (s.bay b).Sound := by
  have hcount : ∀ f, (s.bays.toList.countP fun e => e.defrost.state == .self && e.feeder == f) = selfs s.places f := fun f => by
    rw [countP_bays]
    simp only [selfs, State.places, place_isSelf]
  constructor
  · rintro ⟨hf, hg⟩
    refine ⟨fun f => ?_, hg⟩
    obtain ⟨h1, h2, h3, h4, h5⟩ := hf f
    exact ⟨h1, fun b => (h2 b).trans (place_grant_iff _ f).symm, h3, fun b => (h4 b).trans (place_queue_iff _ f).symm,
      h5.trans (hcount f)⟩
  · rintro ⟨hf, hg⟩
    refine ⟨fun f => ?_, hg⟩
    obtain ⟨h1, h2, h3, h4, h5⟩ := hf f
    exact ⟨h1, fun b => (h2 b).trans (place_grant_iff _ f), h3, fun b => (h4 b).trans (place_queue_iff _ f),
      h5.trans (hcount f).symm⟩

/-! ### One bay changes its place -/

theorem update_iff {p : BayNo → Place} {b : BayNo} {q x : Place} (hp : p b ≠ x) (hq : q ≠ x) (c : BayNo) :
    Function.update p b q c = x ↔ p c = x := by
  by_cases hc : c = b
  · subst hc
    simp [hp, hq]
  · rw [Function.update_of_ne hc]

theorem selfs_same {p : BayNo → Place} {b : BayNo} {q : Place} {f : FeederNo} (h : q.isSelf f = (p b).isSelf f) :
    selfs (Function.update p b q) f = selfs p f := by
  unfold selfs
  congr 1
  refine Finset.filter_congr fun c _ => ?_
  by_cases hc : c = b
  · subst hc
    rw [Function.update_self, h]
  · rw [Function.update_of_ne hc]

theorem selfs_join {p : BayNo → Place} {b : BayNo} {q : Place} {f : FeederNo} (hp : (p b).isSelf f = false)
    (hq : q.isSelf f = true) : selfs (Function.update p b q) f = selfs p f + 1 := by
  unfold selfs
  have h : (Finset.univ.filter fun c => (Function.update p b q c).isSelf f = true)
      = insert b (Finset.univ.filter fun c => (p c).isSelf f = true) := by
    ext c
    by_cases hc : c = b
    · subst hc
      simp [hq]
    · simp [hc]
  rw [h, Finset.card_insert_of_notMem (by simp [hp])]

theorem selfs_leave {p : BayNo → Place} {b : BayNo} {q : Place} {f : FeederNo} (hp : (p b).isSelf f = true)
    (hq : q.isSelf f = false) : selfs (Function.update p b q) f = selfs p f - 1 := by
  have h := selfs_join (p := Function.update p b q) (b := b) (q := p b) (f := f) (by rw [Function.update_self, hq]) hp
  rw [Function.update_idem, Function.update_eq_self] at h
  omega

/-- The entry of a feeder the bay neither leaves nor joins. -/
theorem Fits.elsewhere {x : Feeder} {f : FeederNo} {p : BayNo → Place} {b : BayNo} {q : Place} (h : Fits x f p)
    (hp : p b ≠ .grant f ∧ p b ≠ .queue f ∧ (p b).isSelf f = false) (hq : q ≠ .grant f ∧ q ≠ .queue f ∧ q.isSelf f = false) :
    Fits x f (Function.update p b q) where
  grants := h.grants
  granted c := (h.granted c).trans (update_iff hp.1 hq.1 c).symm
  queue := h.queue
  queued c := (h.queued c).trans (update_iff hp.2.1 hq.2.1 c).symm
  count := h.count.trans (selfs_same (by rw [hp.2.2, hq.2.2])).symm

theorem Fits.release {x : Feeder} {f : FeederNo} {p : BayNo → Place} {b : BayNo} (h : Fits x f p) (hp : p b = .grant f) :
    Fits { x with grants := x.grants.filter fun y => y != b } f (Function.update p b .nowhere) where
  grants := h.grants.filter _
  granted c := by
    rw [List.mem_filter, h.granted]
    by_cases hc : c = b
    · subst hc
      simp
    · simp [hc]
  queue := h.queue
  queued c := by rw [h.queued, update_iff] <;> simp [hp]
  count := h.count.trans (selfs_same (by simp [hp, Place.isSelf])).symm

theorem Fits.unqueue {x : Feeder} {f : FeederNo} {p : BayNo → Place} {b : BayNo} (h : Fits x f p)
    (hp : p b = .queue f ∨ p b = .nowhere) : Fits (x.unqueue b) f (Function.update p b .nowhere) where
  grants := h.grants
  granted c := by
    rw [update_iff]
    · exact h.granted c
    · rcases hp with hp | hp <;> simp [hp]
    · simp
  queue := h.queue.sublist ((List.filter_sublist).map _)
  queued c := by
    have hmem : c ∈ (x.unqueue b).queue.map Prod.fst ↔ c ∈ x.queue.map Prod.fst ∧ c ≠ b := by
      simp only [Feeder.unqueue, List.mem_map, List.mem_filter, bne_iff_ne]
      constructor
      · rintro ⟨e, ⟨he, hb⟩, rfl⟩
        exact ⟨⟨e, he, rfl⟩, hb⟩
      · rintro ⟨⟨e, he, rfl⟩, hb⟩
        exact ⟨e, ⟨he, hb⟩, rfl⟩
    rw [hmem, h.queued]
    by_cases hc : c = b
    · subst hc
      simp
    · simp [hc]
  count := h.count.trans (selfs_same (by rcases hp with hp | hp <;> simp [hp, Place.isSelf])).symm

theorem Fits.selfLeave {x : Feeder} {f : FeederNo} {p : BayNo → Place} {b : BayNo} (h : Fits x f p) (hp : p b = .self f) :
    Fits { x with selfCount := x.selfCount - 1 } f (Function.update p b .nowhere) where
  grants := h.grants
  granted c := by rw [h.granted, update_iff] <;> simp [hp]
  queue := h.queue
  queued c := by rw [h.queued, update_iff] <;> simp [hp]
  count := by
    show x.selfCount - 1 = _
    rw [selfs_leave (by simp [hp, Place.isSelf]) rfl, h.count]

theorem Fits.addGrant {x : Feeder} {f : FeederNo} {p : BayNo → Place} {b : BayNo} (h : Fits x f p) (hp : p b = .nowhere) :
    Fits (x.addGrant b) f (Function.update p b (.grant f)) where
  grants := by
    have hnew : b ∉ x.grants := fun hm => by simp [(h.granted b).1 hm] at hp
    exact List.nodup_append.2 ⟨h.grants, List.nodup_singleton b, by
      intro c hc d hd
      rw [List.mem_singleton.1 hd]
      rintro rfl
      exact hnew hc⟩
  granted c := by
    simp only [Feeder.addGrant, List.mem_append, List.mem_singleton, h.granted]
    by_cases hc : c = b
    · subst hc
      simp
    · simp [hc]
  queue := h.queue
  queued c := by
    rw [update_iff (by simp [hp]) (by simp)]
    exact h.queued c
  count := h.count.trans (selfs_same (by simp [hp, Place.isSelf])).symm

theorem Fits.joinQueue {x : Feeder} {f : FeederNo} {p : BayNo → Place} {b : BayNo} (t : Time) (h : Fits x f p)
    (hp : p b = .nowhere) : Fits { x with queue := x.queue ++ [(b, t)] } f (Function.update p b (.queue f)) where
  grants := h.grants
  granted c := by rw [h.granted, update_iff] <;> simp [hp]
  queue := by
    have hnew : b ∉ x.queue.map Prod.fst := fun hm => by simp [(h.queued b).1 hm] at hp
    rw [List.map_append]
    exact List.nodup_append.2 ⟨h.queue, List.nodup_singleton b, by
      intro c hc d hd
      rw [List.mem_singleton.1 hd]
      rintro rfl
      exact hnew hc⟩
  queued c := by
    simp only [List.map_append, List.map_cons, List.map_nil, List.mem_append, List.mem_singleton, h.queued]
    by_cases hc : c = b
    · subst hc
      simp
    · simp [hc]
  count := h.count.trans (selfs_same (by simp [hp, Place.isSelf])).symm

theorem Fits.selfJoin {x : Feeder} {f : FeederNo} {p : BayNo → Place} {b : BayNo} (h : Fits x f p) (hp : p b = .nowhere) :
    Fits { x with selfCount := x.selfCount + 1 } f (Function.update p b (.self f)) where
  grants := h.grants
  granted c := by rw [h.granted, update_iff] <;> simp [hp]
  queue := h.queue
  queued c := by rw [h.queued, update_iff] <;> simp [hp]
  count := by
    show x.selfCount + 1 = _
    rw [selfs_join (by simp [hp, Place.isSelf]) (by simp [Place.isSelf]), h.count]

/-- One entry of the Feeder Table is changed with the place of one bay. -/
theorem Listed.set {s : State} {p : BayNo → Place} {b : BayNo} {q : Place} {f : FeederNo} {x : Feeder} (h : Listed s p)
    (hx : Fits x f (Function.update p b q))
    (hp : ∀ g, f ≠ g → p b ≠ .grant g ∧ p b ≠ .queue g ∧ (p b).isSelf g = false)
    (hq : ∀ g, f ≠ g → q ≠ .grant g ∧ q ≠ .queue g ∧ q.isSelf g = false) :
    Listed (s.setFeeder f x) (Function.update p b q) := fun g => by
  rw [setFeeder_feeder]
  split
  · rename_i hg
    exact hg ▸ hx
  · rename_i hg
    exact (h g).elsewhere (hp g hg) (hq g hg)

theorem Listed.leaves {s : State} {p : BayNo → Place} (h : Listed s p) (b : BayNo) :
    Listed ((p b).leaves.foldl (applyReport b) s) (Function.update p b .nowhere) := by
  have hnone : ∀ g : FeederNo, Place.nowhere ≠ .grant g ∧ Place.nowhere ≠ .queue g ∧ Place.nowhere.isSelf g = false :=
    fun g => ⟨nofun, nofun, rfl⟩
  cases hp : p b with
  | nowhere =>
    have hsame : Function.update p b .nowhere = p := by rw [← hp, Function.update_eq_self]
    rw [hsame]
    exact h
  | grant f => exact h.set (f := f) ((h f).release hp) (fun g hg => by simp [hp, hg, Place.isSelf]) fun g _ => hnone g
  | queue f => exact h.set (f := f) ((h f).unqueue (.inl hp)) (fun g hg => by simp [hp, hg, Place.isSelf]) fun g _ => hnone g
  | self f => exact h.set (f := f) ((h f).selfLeave hp) (fun g hg => by simp [hp, hg, Place.isSelf]) fun g _ => hnone g

theorem Listed.joins {s : State} {p : BayNo → Place} (h : Listed s p) {b : BayNo} (hp : p b = .nowhere) {q : Place}
    {js : List Report} (hj : Joins q js) : Listed (js.foldl (applyReport b) s) (Function.update p b q) := by
  cases hj with
  | nowhere =>
    rw [← hp, Function.update_eq_self]
    exact h
  | queue f t =>
    exact h.set (f := f) ((h f).joinQueue t hp) (fun g _ => by simp [hp, Place.isSelf]) fun g hg => by simp [hg, Place.isSelf]
  | self f => exact h.set (f := f) ((h f).selfJoin hp) (fun g _ => by simp [hp, Place.isSelf]) fun g hg => by simp [hg, Place.isSelf]

/-- A grant to a bay that is in the feeder's queue or nowhere. -/
theorem Listed.grant {s : State} {p : BayNo → Place} (h : Listed s p) {b : BayNo} {f : FeederNo}
    (hp : p b = .queue f ∨ p b = .nowhere) :
    Listed (s.setFeeder f (((s.feeder f).unqueue b).addGrant b)) (Function.update p b (.grant f)) := by
  have hx := ((h f).unqueue hp).addGrant (Function.update_self b _ p)
  rw [Function.update_idem] at hx
  exact h.set hx (fun g hg => by rcases hp with hp | hp <;> simp [hp, hg, Place.isSelf]) fun g hg => by simp [hg, Place.isSelf]

/-- The reports of an update that accounts for the bay's place keep the Feeder Table in step. -/
theorem Ledger.listed {room : Bool} {home : FeederNo} {b : BayNo} {q : Place} {rs : List Report} {s : State}
    {p : BayNo → Place} (hl : Ledger room home (p b) rs q) (h : Listed s p) :
    Listed (rs.foldl (applyReport b) s) (Function.update p b q) := by
  generalize hp : p b = place at hl
  cases hl with
  | stays =>
    rw [← hp, Function.update_eq_self]
    exact h
  | moves joins =>
    rw [List.foldl_append, ← hp]
    have := (h.leaves b).joins (Function.update_self b _ p) joins
    rwa [Function.update_idem] at this
  | direct able free => exact h.grant (by rw [hp]; exact free.symm)

end Sys2Proof.Machine

/-! PROOFS. R36, R57, R158: what keeps the Tag Map in step with the bays occupied, and the tables together over what the Check
Engine and the Feeder Arbiter do. -/

namespace Sys2Proof.Machine

/-! ## The order list -/

/-- The order list holds, once each, the bays with an order pending. -/
structure Pends (l : List (BayNo × Time)) (p : BayNo → Bool) : Prop where
  nodup : (l.map Prod.fst).Nodup
  mem : ∀ b, b ∈ l.map Prod.fst ↔ p b = true

/-- The bays with an order pending. -/
def State.pends (s : State) (b : BayNo) : Bool := (s.bay b).defrost.pending.isSome

theorem ordersAgree_iff (s : State) : OrdersAgree s ↔ Pends s.sources.orders s.pends := by
  have h : ∀ b, s.pends b = true ↔ (s.bay b).defrost.pending ≠ none := fun b => Option.isSome_iff_ne_none
  exact ⟨fun ⟨hn, hm⟩ => ⟨hn, fun b => (hm b).trans (h b).symm⟩, fun ⟨hn, hm⟩ => ⟨hn, fun b => (hm b).trans (h b)⟩⟩

theorem orderPends_fst (q : Sources) (b : BayNo) (t : Time) :
    (q.orderPends b t).orders.map Prod.fst =
      if b ∈ q.orders.map Prod.fst then q.orders.map Prod.fst else q.orders.map Prod.fst ++ [b] := by
  have hany : (q.orders.any fun e => e.1 == b) = true ↔ b ∈ q.orders.map Prod.fst := by
    simp only [List.any_eq_true, beq_iff_eq, List.mem_map]
  unfold Sources.orderPends
  simp only [hany]
  split
  · rw [List.map_map]
    refine List.map_congr_left fun e _ => ?_
    by_cases he : e.1 = b <;> simp [he]
  · simp

theorem Pends.pends {q : Sources} {p : BayNo → Bool} (h : Pends q.orders p) (b : BayNo) (t : Time) :
    Pends (q.orderPends b t).orders (Function.update p b true) := by
  have hupd : ∀ c, Function.update p b true c = true ↔ c = b ∨ p c = true := fun c => by
    by_cases hc : c = b
    · subst hc
      simp
    · simp [hc]
  constructor
  · rw [orderPends_fst]
    split
    · exact h.nodup
    · rename_i hb
      refine List.nodup_append.2 ⟨h.nodup, List.nodup_singleton b, fun c hc d hd => ?_⟩
      rw [List.mem_singleton.1 hd]
      rintro rfl
      exact hb hc
  · intro c
    rw [orderPends_fst, hupd]
    split
    · rename_i hb
      rw [h.mem]
      exact ⟨.inr, fun hc => hc.elim (fun hc => hc ▸ (h.mem b).1 hb) id⟩
    · rw [List.mem_append, List.mem_singleton, h.mem]
      exact or_comm

theorem Pends.leaves {q : Sources} {p : BayNo → Bool} (h : Pends q.orders p) (b : BayNo) :
    Pends (q.orderLeaves b).orders (Function.update p b false) := by
  refine ⟨h.nodup.sublist ((List.filter_sublist).map _), fun c => ?_⟩
  have hmem : c ∈ (q.orderLeaves b).orders.map Prod.fst ↔ c ∈ q.orders.map Prod.fst ∧ c ≠ b := by
    simp only [Sources.orderLeaves, List.mem_map, List.mem_filter, bne_iff_ne]
    constructor
    · rintro ⟨e, ⟨he, hb⟩, rfl⟩
      exact ⟨⟨e, he, rfl⟩, hb⟩
    · rintro ⟨⟨e, he, rfl⟩, hb⟩
      exact ⟨e, ⟨he, hb⟩, rfl⟩
  rw [hmem, h.mem]
  by_cases hc : c = b
  · subst hc
    simp
  · simp [hc]

/-- The tells of an update keep the order list in step. -/
theorem Pends.tells {s : State} {p : BayNo → Bool} (h : Pends s.sources.orders p) (b : BayNo) (os : List OrderTell) :
    Pends (tellOrders b os s).sources.orders (Function.update p b (told (p b) os)) := by
  induction os generalizing s p with
  | nil =>
    have hp : Function.update p b (told (p b) []) = p := Function.update_eq_self b p
    rw [hp]
    exact h
  | cons t rest ih =>
    have hstep : ∀ (q : Sources) (v : Bool), (∀ x, told x [t] = v) → Pends q.orders (Function.update p b v) →
        tellOrders b (t :: rest) s = tellOrders b rest { s with sources := q } →
        Pends (tellOrders b (t :: rest) s).sources.orders (Function.update p b (told (p b) (t :: rest))) := by
      intro q v hv hq hs
      have := ih (s := { s with sources := q }) hq
      rw [Function.update_self, Function.update_idem] at this
      rw [hs, show told (p b) (t :: rest) = told v rest by rw [← hv (p b)]; rfl]
      exact this
    cases t with
    | pends => exact hstep _ true (fun _ => rfl) (h.pends b s.now) rfl
    | withdrawn => exact hstep _ false (fun _ => rfl) (h.leaves b) rfl

theorem raiseAll_orders (b : BayNo) (l : List (AlertKind × Condition)) (s : State) :
    (raiseAll b l s).sources.orders = s.sources.orders := by
  unfold raiseAll
  generalize s.sources = q
  show (l.foldl _ q).orders = q.orders
  induction l generalizing q with
  | nil => rfl
  | cons c rest ih => exact ih _

/-! ## The Tag Map -/

/-- The radios and bays of the Tag Map. -/
def State.pairs (s : State) : List (RadioAddr × BayNo) := s.link.tagMap.map fun t => (t.radio, t.bay)

/-- What `OccupancyAgrees` asks, of the pairs of the Tag Map. -/
structure Occupied (s : State) : Prop where
  radios : (s.pairs.map Prod.fst).Nodup
  bays : (s.pairs.map Prod.snd).Nodup
  mapped : ∀ x ∈ s.pairs, (s.bay x.2).occupied = true ∧ (s.bay x.2).radio = some x.1
  named : ∀ b, (s.bay b).occupied = true → ∃ a, (a, b) ∈ s.pairs
  vacant : ∀ b, (s.bay b).occupied = false →
    (s.bay b).radio = none ∧ (s.bay b).defrost.state = .idle ∧ (s.bay b).defrost.pending = none
  blank : ∀ b, (s.bay b).readingHeld = false → (s.bay b).reading = .zero

theorem occupancyAgrees_iff (s : State) : OccupancyAgrees s ↔ Occupied s := by
  have hfst : s.pairs.map Prod.fst = s.link.tagMap.map TagEntry.radio := by simp [State.pairs]
  have hsnd : s.pairs.map Prod.snd = s.link.tagMap.map TagEntry.bay := by simp [State.pairs]
  constructor
  · rintro ⟨h1, h2, h3, h4⟩
    refine ⟨hfst ▸ h1, hsnd ▸ h2, fun x hx => ?_, fun b hb => ?_, fun b => (h4 b).2.1, fun b => (h4 b).2.2⟩
    · obtain ⟨t, ht, rfl⟩ := List.mem_map.1 hx
      exact h3 t ht
    · obtain ⟨t, ht, rfl⟩ := (h4 b).1 hb
      exact ⟨t.radio, List.mem_map_of_mem ht⟩
  · rintro ⟨h1, h2, h3, h4, h5, h6⟩
    refine ⟨hfst ▸ h1, hsnd ▸ h2, fun t ht => h3 _ (List.mem_map_of_mem ht), fun b => ⟨fun hb => ?_, h5 b, h6 b⟩⟩
    obtain ⟨a, ha⟩ := h4 b hb
    obtain ⟨t, ht, he⟩ := List.mem_map.1 ha
    exact ⟨t, ht, (Prod.ext_iff.1 he).2⟩

/-- What a change that is no mapping keeps of an entry. -/
structure Housed (e e' : BayEntry) : Prop where
  occupied : e'.occupied = e.occupied
  radio : e'.radio = e.radio
  vacant : e.occupied = false → e.defrost.state = .idle → e.defrost.pending = none →
    e'.defrost.state = .idle ∧ e'.defrost.pending = none
  blank : (e.readingHeld = false → e.reading = .zero) → e'.readingHeld = false → e'.reading = .zero

theorem Housed.refl (e : BayEntry) : Housed e e := ⟨rfl, rfl, fun _ hs hp => ⟨hs, hp⟩, id⟩

theorem Occupied.housed {s t : State} (h : Occupied s) (hp : t.pairs = s.pairs) (hb : ∀ b, Housed (s.bay b) (t.bay b)) :
    Occupied t where
  radios := by rw [hp]; exact h.radios
  bays := by rw [hp]; exact h.bays
  mapped x hx := by
    rw [(hb x.2).occupied, (hb x.2).radio]
    exact h.mapped x (hp ▸ hx)
  named b hocc := by
    rw [hp]
    exact h.named b (by rw [← (hb b).occupied]; exact hocc)
  vacant b hvac := by
    have hvac : (s.bay b).occupied = false := by rw [← (hb b).occupied]; exact hvac
    obtain ⟨hr, hs, hpend⟩ := h.vacant b hvac
    rw [(hb b).radio]
    exact ⟨hr, (hb b).vacant hvac hs hpend⟩
  blank b := (hb b).blank (h.blank b)

/-! ## The tables together -/

/-- The Tag Map, the order list and the Feeder Table agree with the bays. -/
structure Agree (s : State) : Prop where
  occupied : Occupied s
  pends : Pends s.sources.orders s.pends
  listed : Listed s s.places
  sound : ∀ b, (s.bay b).Sound

theorem agree_iff (s : State) : Agree s ↔ OccupancyAgrees s ∧ OrdersAgree s ∧ FeedersAgree s := by
  rw [occupancyAgrees_iff, ordersAgree_iff, feedersAgree_iff]
  exact ⟨fun h => ⟨h.occupied, h.pends, h.listed, h.sound⟩, fun ⟨h1, h2, h3, h4⟩ => ⟨h1, h2, h3, h4⟩⟩

/-- Two entries that ask the same of the tables. -/
structure Alike (e e' : BayEntry) : Prop where
  occupied : e'.occupied = e.occupied
  radio : e'.radio = e.radio
  readingHeld : e'.readingHeld = e.readingHeld
  reading : e'.reading = e.reading
  feeder : e'.feeder = e.feeder
  state : e'.defrost.state = e.defrost.state
  reason : e'.defrost.reason = e.defrost.reason
  grantFeeder : e'.defrost.grantFeeder = e.defrost.grantFeeder
  pending : e'.defrost.pending = e.defrost.pending

theorem Alike.refl (e : BayEntry) : Alike e e := ⟨rfl, rfl, rfl, rfl, rfl, rfl, rfl, rfl, rfl⟩

theorem Alike.housed {e e' : BayEntry} (h : Alike e e') : Housed e e' :=
  ⟨h.occupied, h.radio, fun _ hs hp => ⟨h.state.trans hs, h.pending.trans hp⟩, by rw [h.readingHeld, h.reading]; exact id⟩

theorem Alike.place {e e' : BayEntry} (h : Alike e e') : e'.place = e.place := by
  unfold BayEntry.place
  rw [h.state, h.grantFeeder, h.reason, h.feeder]

theorem Alike.sound {e e' : BayEntry} (h : Alike e e') (hs : e.Sound) : e'.Sound :=
  Sound.of_same hs h.state h.grantFeeder h.feeder

/-- A state whose entries and lists ask the same. -/
theorem Agree.alike {s t : State} (h : Agree s) (hb : ∀ b, Alike (s.bay b) (t.bay b)) (hp : t.pairs = s.pairs)
    (ho : t.sources.orders = s.sources.orders)
    (hf : ∀ f, (t.feeder f).grants = (s.feeder f).grants ∧ (t.feeder f).queue = (s.feeder f).queue
      ∧ (t.feeder f).selfCount = (s.feeder f).selfCount) : Agree t where
  occupied := h.occupied.housed hp fun b => (hb b).housed
  pends := by
    have hpends : t.pends = s.pends := funext fun b => by simp only [State.pends, (hb b).pending]
    rw [ho, hpends]
    exact h.pends
  listed f := by
    have hplaces : t.places = s.places := funext fun b => (hb b).place
    obtain ⟨h1, h2, h3, h4, h5⟩ := h.listed f
    obtain ⟨hg, hq, hc⟩ := hf f
    rw [hplaces]
    exact ⟨by rw [hg]; exact h1, by rw [hg]; exact h2, by rw [hq]; exact h3, by rw [hq]; exact h4, by rw [hc]; exact h5⟩
  sound b := (hb b).sound (h.sound b)

/-- A state that differs in nothing the tables are. -/
theorem Agree.of_same {s t : State} (h : Agree s) (hb : t.bays = s.bays) (hl : t.link.tagMap = s.link.tagMap)
    (ho : t.sources.orders = s.sources.orders) (hf : t.feeders = s.feeders) : Agree t := by
  have hbay : ∀ b, t.bay b = s.bay b := fun b => by simp only [State.bay, hb]
  have hfeeder : ∀ f, t.feeder f = s.feeder f := fun f => by simp only [State.feeder, hf]
  refine h.alike (fun b => ?_) ?_ ho fun f => ?_
  · rw [hbay]
    exact .refl _
  · simp only [State.pairs, hl]
  · rw [hfeeder]
    exact ⟨rfl, rfl, rfl⟩

/-- One entry is put that asks the same. -/
theorem Agree.setBay {s : State} (h : Agree s) {b : BayNo} {e : BayEntry} (he : Alike (s.bay b) e) : Agree (s.setBay b e) := by
  refine h.alike (fun c => ?_) rfl rfl fun f => ⟨rfl, rfl, rfl⟩
  rw [setBay_bay]
  split
  · rename_i hc
    exact hc ▸ he
  · exact .refl _

/-! ## Updates -/

theorem opened_bay (b : BayNo) (w : Work) (full : Bool) (s : State) (c : BayNo) :
    (opened b w full s).bay c = if b = c then { w.bay with inFlight := true } else s.bay c := by
  have h : (opened b w full s).bays = (commitCore b w full s).bays := applyReports_bays _ _ _
  have hc : (opened b w full s).bay c = (commitCore b w full s).bay c := by simp only [State.bay, h]
  rw [hc, commitCore_bay]

theorem opened_link (b : BayNo) (w : Work) (full : Bool) (s : State) : (opened b w full s).link = s.link := by
  unfold opened
  rw [applyReports_frame]
  rfl

theorem opened_orders (b : BayNo) (w : Work) (full : Bool) (s : State) :
    (opened b w full s).sources.orders = (tellOrders b w.orders s).sources.orders := by
  unfold opened
  rw [applyReports_frame]
  exact raiseAll_orders _ _ _

theorem opened_places (b : BayNo) (w : Work) (full : Bool) (s : State) :
    (opened b w full s).places = Function.update s.places b w.bay.place := by
  funext c
  simp only [State.places, opened_bay]
  by_cases hc : b = c
  · subst hc
    rw [if_pos rfl, Function.update_self]
    rfl
  · rw [if_neg hc, Function.update_of_ne (Ne.symm hc)]
    rfl

theorem opened_pends (b : BayNo) (w : Work) (full : Bool) (s : State) :
    (opened b w full s).pends = Function.update s.pends b w.bay.defrost.pending.isSome := by
  funext c
  simp only [State.pends, opened_bay]
  by_cases hc : b = c
  · subst hc
    rw [if_pos rfl, Function.update_self]
  · rw [if_neg hc, Function.update_of_ne (Ne.symm hc)]
    rfl

theorem listed_of_feeders {s t : State} {p : BayNo → Place} (h : Listed s p) (hf : t.feeders = s.feeders) : Listed t p := fun f => by
  have hfeeder : t.feeder f = s.feeder f := by simp only [State.feeder, hf]
  rw [hfeeder]
  exact h f

theorem Listed.opened {s : State} {b : BayNo} {w : Work} {room : Bool} {e : BayEntry} (h : Listed s s.places)
    (he : (s.bay b).place = e.place) (hw : Booked room e w) (full : Bool) :
    Listed (opened b w full s) (Machine.opened b w full s).places := by
  obtain ⟨rs, hl, ho⟩ := Booked.opened hw b full s
  rw [opened_places, ho]
  rw [← he] at hl
  exact Ledger.listed (p := s.places) hl (listed_of_feeders h (commitCore_feeders b w full s))

theorem Pends.opened {s : State} {b : BayNo} {w : Work} (h : Pends s.sources.orders s.pends)
    (hw : w.bay.defrost.pending.isSome = told (s.bay b).defrost.pending.isSome w.orders) (full : Bool) :
    Pends (Machine.opened b w full s).sources.orders (Machine.opened b w full s).pends := by
  rw [opened_orders, opened_pends, hw]
  exact h.tells b w.orders

theorem Agree.opened {s : State} {b : BayNo} {w : Work} {room : Bool} (h : Agree s) (hbook : Booked room (s.bay b) w)
    (htell : w.bay.defrost.pending.isSome = told (s.bay b).defrost.pending.isSome w.orders)
    (hhouse : Housed (s.bay b) w.bay) (hsound : w.bay.Sound) (full : Bool) : Agree (Machine.opened b w full s) where
  occupied := h.occupied.housed (by simp only [State.pairs, opened_link]) fun c => by
    rw [opened_bay]
    split
    · rename_i hc
      subst hc
      exact ⟨hhouse.occupied, hhouse.radio, hhouse.vacant, hhouse.blank⟩
    · exact .refl _
  pends := h.pends.opened htell full
  listed := h.listed.opened rfl hbook full
  sound c := by
    rw [opened_bay]
    split
    · exact hsound
    · exact h.sound c

end Sys2Proof.Machine

/-! PROOFS. R36, R107-R109, R158, continued: every deed of the Check Engine and the Feeder Arbiter keeps the tables in step. -/

namespace Sys2Proof.Machine

/-! ## Updates that begin at a bay as it stands -/

/-- At a VACANT bay only expiries and revocations begin, and its defrost record is in IDLE with no order pending. -/
theorem Begun.vacant {s : State} {b : BayNo} {w : Work} (h : Begun s b w) (hv : (s.bay b).occupied = false)
    (hs : (s.bay b).defrost.state = .idle) (hp : (s.bay b).defrost.pending = none) :
    w.bay.defrost.state = .idle ∧ w.bay.defrost.pending = none := by
  cases h with
  | expiry t =>
    cases t with
    | silence | door => exact ⟨hs, hp⟩
    | defrost =>
      have hsame : Work.expires (s.ctx b) .defrost (startWork b s) = startWork b s := by
        have hst : (startWork b s).bay.defrost.state = .idle := hs
        simp only [Work.expires, hst]
      rw [hsame]
      exact ⟨hs, hp⟩
  | revocation => exact ⟨hs, hp⟩
  | frame x fits =>
    simp only [frameFits, hv, Bool.false_and] at fits
    cases fits
  | loading on occupied | forced occupied | cancelled occupied | assigned _ occupied => rw [hv] at occupied; cases occupied

theorem Begun.tells {s : State} {b : BayNo} {w : Work} (h : Begun s b w) :
    w.bay.defrost.pending.isSome = told (s.bay b).defrost.pending.isSome w.orders := by
  rcases h.reworks with h | ⟨f, -, -, rfl⟩
  · obtain ⟨os, ho, hp⟩ := h.tells
    rw [ho]
    exact hp
  · rfl

theorem Begun.housed {s : State} {b : BayNo} {w : Work} (h : Begun s b w) : Housed (s.bay b) w.bay := by
  have hv := fun hv hs hp => h.vacant hv hs hp
  rcases h.reworks with h | ⟨f, -, -, rfl⟩
  · exact ⟨h.steady.occupied, h.steady.radio, hv, h.steady.blank⟩
  · exact ⟨rfl, rfl, hv, id⟩

/-! ## The mapping commands -/

theorem mapWork_fields (a : RadioAddr) (b : BayNo) (k : UnitKind) (s : State) :
    (mapWork a b k s).reports = [] ∧ (mapWork a b k s).orders = [] ∧ (mapWork a b k s).bay.place = .nowhere
      ∧ (mapWork a b k s).bay.defrost.pending = none ∧ (mapWork a b k s).bay.defrost.grantFeeder = none
      ∧ (mapWork a b k s).bay.occupied = true ∧ (mapWork a b k s).bay.radio = some a
      ∧ (mapWork a b k s).bay.readingHeld = false ∧ (mapWork a b k s).bay.reading = .zero :=
  ⟨rfl, rfl, rfl, rfl, rfl, rfl, rfl, rfl, rfl⟩

theorem linkMap_pairs (a : RadioAddr) (b : BayNo) (s : State) : (linkMap a b s).pairs = s.pairs ++ [(a, b)] := by
  unfold linkMap State.pairs
  split <;> simp

theorem linkMap_orders (a : RadioAddr) (b : BayNo) (s : State) :
    (linkMap a b s).sources.orders = s.sources.orders := by
  unfold linkMap
  split <;> rfl

theorem entryOf_none {s : State} {a : RadioAddr} (h : s.link.entryOf a = none) {x : RadioAddr × BayNo} (hx : x ∈ s.pairs) :
    x.1 ≠ a := by
  obtain ⟨t, ht, rfl⟩ := List.mem_map.1 hx
  simpa using List.find?_eq_none.1 h t ht

/-- A VACANT bay is mapped to a radio that is mapped to none (R54, R76). -/
theorem Occupied.maps {s t : State} (h : Occupied s) {a : RadioAddr} {b : BayNo} {e : BayEntry}
    (new : s.link.entryOf a = none) (vacant : (s.bay b).occupied = false) (hp : t.pairs = s.pairs ++ [(a, b)])
    (hb : ∀ c, t.bay c = if b = c then e else s.bay c) (hocc : e.occupied = true) (hradio : e.radio = some a)
    (hblank : e.readingHeld = false → e.reading = .zero) : Occupied t := by
  have hbay : ∀ x ∈ s.pairs, b ≠ x.2 := fun x hx he => by
    have := (h.mapped x hx).1
    rw [← he, vacant] at this
    cases this
  refine ⟨?_, ?_, fun x hx => ?_, fun c hc => ?_, fun c hc => ?_, fun c => ?_⟩
  · rw [hp, List.map_append]
    refine List.nodup_append.2 ⟨h.radios, List.nodup_singleton a, fun r hr d hd => ?_⟩
    obtain ⟨x, hx, rfl⟩ := List.mem_map.1 hr
    rw [List.mem_singleton.1 hd]
    exact entryOf_none new hx
  · rw [hp, List.map_append]
    refine List.nodup_append.2 ⟨h.bays, List.nodup_singleton b, fun r hr d hd => ?_⟩
    obtain ⟨x, hx, rfl⟩ := List.mem_map.1 hr
    rw [List.mem_singleton.1 hd]
    exact fun he => hbay x hx he.symm
  · rw [hp, List.mem_append, List.mem_singleton] at hx
    rw [hb]
    rcases hx with hx | rfl
    · rw [if_neg (hbay x hx)]
      exact h.mapped x hx
    · rw [if_pos rfl]
      exact ⟨hocc, hradio⟩
  · rw [hb] at hc
    rw [hp]
    split at hc
    · rename_i he
      exact ⟨a, by simp [he]⟩
    · obtain ⟨r, hr⟩ := h.named c hc
      exact ⟨r, List.mem_append_left _ hr⟩
  · rw [hb] at hc ⊢
    split at hc
    · rw [hocc] at hc
      cases hc
    · rename_i he
      rw [if_neg he]
      exact h.vacant c hc
  · rw [hb]
    split
    · exact hblank
    · exact h.blank c

theorem linkUnmap_pairs (a : RadioAddr) (b : BayNo) (s : State) :
    (linkUnmap a b s).pairs = s.pairs.filter fun x => x.1 != a := by
  simp only [State.pairs, linkUnmap, List.filter_map]
  rfl

/-- A bay becomes VACANT with its one entry of the Tag Map (R55, R77). -/
theorem Occupied.unmaps {s t : State} (h : Occupied s) {a : RadioAddr} {b : BayNo} {e : BayEntry}
    (hab : (a, b) ∈ s.pairs) (hp : t.pairs = s.pairs.filter fun x => x.1 != a)
    (hb : ∀ c, t.bay c = if b = c then e else s.bay c) (hocc : e.occupied = false) (hradio : e.radio = none)
    (hstate : e.defrost.state = .idle) (hpend : e.defrost.pending = none)
    (hblank : e.readingHeld = false → e.reading = .zero) : Occupied t := by
  have hmem : ∀ x, x ∈ t.pairs ↔ x ∈ s.pairs ∧ x.1 ≠ a := fun x => by
    rw [hp, List.mem_filter, bne_iff_ne]
  have hsub : t.pairs.Sublist s.pairs := hp ▸ List.filter_sublist
  refine ⟨h.radios.sublist (hsub.map _), h.bays.sublist (hsub.map _), fun x hx => ?_, fun c hc => ?_, fun c hc => ?_,
    fun c => ?_⟩
  · obtain ⟨hx, hxa⟩ := (hmem x).1 hx
    have hne : b ≠ x.2 := fun he => by
      have := List.inj_on_of_nodup_map h.bays hab hx he
      exact hxa (by rw [← this])
    rw [hb, if_neg hne]
    exact h.mapped x hx
  · rw [hb] at hc
    split at hc
    · rw [hocc] at hc
      cases hc
    · rename_i hne
      obtain ⟨r, hr⟩ := h.named c hc
      refine ⟨r, (hmem _).2 ⟨hr, fun hra => hne ?_⟩⟩
      have := List.inj_on_of_nodup_map h.radios hab hr hra.symm
      exact (Prod.ext_iff.1 this).2
  · rw [hb] at hc ⊢
    split
    · exact ⟨hradio, hstate, hpend⟩
    · rename_i hne
      rw [if_neg hne] at hc
      exact h.vacant c hc
  · rw [hb]
    split
    · exact hblank
    · exact h.blank c

/-- Tells that leave nothing pending leave nothing pending of a bay with nothing pending before. -/
theorem told_false_of_true {os : List OrderTell} (h : told true os = false) : told false os = false := by
  cases os with
  | nil => rfl
  | cons t rest => exact h

theorem withdrawOrder_pending (w : Work) : w.withdrawOrder.bay.defrost.pending = none := by
  unfold Work.withdrawOrder
  split
  · rfl
  · rename_i h
    simpa using h

theorem giveUp_pending (w : Work) : w.giveUp.bay.defrost.pending = none := withdrawOrder_pending _

/-- What an UNMAP_TAG tells leaves no order pending (R77, R84). -/
theorem unmapTag_tells (w : Work) (h0 : w.orders = []) : told false w.unmapTag.orders = false := by
  obtain ⟨os, ho, hp⟩ := (reworks_giveUp w).tells
  rw [giveUp_pending, h0, List.nil_append] at *
  show told false w.giveUp.orders = false
  rw [ho]
  cases hpend : w.bay.defrost.pending.isSome with
  | true =>
    rw [hpend] at hp
    exact told_false_of_true hp.symm
  | false =>
    rw [hpend] at hp
    exact hp.symm

theorem unmapTag_fields (w : Work) :
    w.unmapTag.bay.occupied = false ∧ w.unmapTag.bay.radio = none ∧ w.unmapTag.bay.defrost.state = .idle
      ∧ w.unmapTag.bay.defrost.pending = none ∧ w.unmapTag.bay.defrost.grantFeeder = none
      ∧ w.unmapTag.bay.readingHeld = w.giveUp.bay.readingHeld ∧ w.unmapTag.bay.reading = w.giveUp.bay.reading := by
  unfold Work.unmapTag
  generalize w.giveUp = u
  simp [BayEntry.stopTimers, BayEntry.setTimer, BayEntry.putTimer, BayEntry.markStale, DefrostRecord.reset]

theorem unmapTag_blank {w : Work} (h : w.bay.readingHeld = false → w.bay.reading = .zero) :
    w.unmapTag.bay.readingHeld = false → w.unmapTag.bay.reading = .zero := by
  obtain ⟨-, -, -, -, -, hheld, hreading⟩ := unmapTag_fields w
  rw [hheld, hreading]
  exact (reworks_giveUp w).steady.blank h

/-! ## Deeds -/

theorem grantWork_place (f : FeederNo) (b : BayNo) (s : State) :
    (grantWork f b s).bay.place = .grant f ∧ (grantWork f b s).bay.feeder = (s.bay b).feeder
      ∧ (grantWork f b s).bay.defrost.state = .ordered ∧ (grantWork f b s).bay.defrost.grantFeeder = some f := by
  obtain ⟨-, hs, -, hg, hf⟩ := enter_spec s.params .ordered
    ((startWork b s).defrost { (startWork b s).bay.defrost with grantFeeder := some f })
  refine ⟨(place_grant_iff _ f).2 ⟨?_, hg⟩, hf, hs, hg⟩
  show (Work.enter _ _ _).bay.defrost.state.granted = true
  rw [hs]
  rfl

/-- A grant to a bay in the feeder's queue (R91, R112). -/
theorem Agree.grant {s : State} (h : Agree s) {f : FeederNo} {b : BayNo} (queued : b ∈ (s.feeder f).queue.map Prod.fst) :
    Agree (grant f b s) := by
  have hplace : s.places b = .queue f := ((h.listed f).queued b).1 queued
  obtain ⟨hdue, -, hfeeder⟩ := (place_queue_iff _ _).1 hplace
  have hset : Listed (s.setFeeder f (((s.feeder f).unqueue b).addGrant b)) (Function.update s.places b (.grant f)) :=
    h.listed.grant (.inl hplace)
  have hrework := reworks_granted s.params f (startWork b (s.setFeeder f (((s.feeder f).unqueue b).addGrant b)))
  have hbay : ∀ c, (Machine.grant f b s).bay c = if b = c then
      { (grantWork f b (s.setFeeder f (((s.feeder f).unqueue b).addGrant b))).bay with inFlight := true } else s.bay c :=
    fun c => commitCore_bay _ _ _ _ c
  generalize hw : grantWork f b (s.setFeeder f (((s.feeder f).unqueue b).addGrant b)) = w at hbay
  obtain ⟨hwp, hwf, hws, hwg⟩ : w.bay.place = .grant f ∧ w.bay.feeder = (s.bay b).feeder ∧ w.bay.defrost.state = .ordered
      ∧ w.bay.defrost.grantFeeder = some f := hw ▸ grantWork_place f b _
  have hrework : Reworks (startWork b s) w := hw ▸ hrework
  obtain ⟨os, ho, hp⟩ := hrework.tells
  have hgrant : Machine.grant f b s = commitCore b w false (s.setFeeder f (((s.feeder f).unqueue b).addGrant b)) := by
    rw [← hw]
    rfl
  refine ⟨h.occupied.housed ?_ fun c => ?_, ?_, ?_, fun c => ?_⟩
  · rfl
  · rw [hbay]
    split
    · rename_i hc
      subst hc
      refine ⟨hrework.steady.occupied, hrework.steady.radio, fun _ hs => ?_, hrework.steady.blank⟩
      rw [hdue] at hs
      cases hs
    · exact .refl _
  · have hpends : (Machine.grant f b s).pends = Function.update s.pends b w.bay.defrost.pending.isSome := by
      funext c
      simp only [State.pends, hbay]
      by_cases hc : b = c
      · subst hc
        rw [if_pos rfl, Function.update_self]
      · rw [if_neg hc, Function.update_of_ne (Ne.symm hc)]
        rfl
    have horders : (Machine.grant f b s).sources.orders = (tellOrders b w.orders s).sources.orders := by
      rw [hgrant]
      exact raiseAll_orders _ _ _
    rw [hpends, horders, hp, ho]
    exact h.pends.tells b os
  · have hplaces : (Machine.grant f b s).places = Function.update s.places b (.grant f) := by
      funext c
      simp only [State.places, hbay]
      by_cases hc : b = c
      · subst hc
        rw [if_pos rfl, Function.update_self]
        exact hwp
      · rw [if_neg hc, Function.update_of_ne (Ne.symm hc)]
        rfl
    rw [hplaces, hgrant]
    exact listed_of_feeders hset (commitCore_feeders _ _ _ _)
  · rw [hbay]
    split
    · intro g hg
      have hg : w.bay.defrost.grantFeeder = some g := hg
      rw [hwg, Option.some.injEq] at hg
      subst hg
      exact ⟨show w.bay.defrost.state.granted = true by rw [hws]; rfl, hwf.trans hfeeder⟩
    · exact h.sound c

theorem Agree.maps {s : State} (h : Agree s) {a : RadioAddr} {b : BayNo} (k : UnitKind) (new : s.link.entryOf a = none)
    (vacant : (s.bay b).occupied = false) : Agree (Machine.opened b (mapWork a b k (linkMap a b s)) true (linkMap a b s)) := by
  obtain ⟨hreports, horders, hplace, hpend, hgrant, hocc, hradio, hheld, hzero⟩ := mapWork_fields a b k (linkMap a b s)
  obtain ⟨-, hstate, hnone⟩ := h.occupied.vacant b vacant
  have hold : (s.bay b).place = .nowhere := by simp [BayEntry.place, hstate]
  generalize mapWork a b k (linkMap a b s) = w at hreports horders hplace hpend hgrant hocc hradio hheld hzero
  have hbay : ∀ c, (Machine.opened b w true (linkMap a b s)).bay c = if b = c then { w.bay with inFlight := true } else s.bay c :=
    fun c => by rw [opened_bay, linkMap_bay]
  have hplaces : (linkMap a b s).places = s.places := funext fun c => by simp only [State.places, linkMap_bay]
  have hpends : (linkMap a b s).pends = s.pends := funext fun c => by simp only [State.pends, linkMap_bay]
  refine ⟨h.occupied.maps new vacant ?_ hbay hocc hradio fun _ => hzero, ?_, ?_, fun c => ?_⟩
  · rw [State.pairs, opened_link]
    exact linkMap_pairs a b s
  · refine Pends.opened ?_ ?_ true
    · rw [linkMap_orders, hpends]
      exact h.pends
    · rw [hpend, horders, linkMap_bay, hnone]
      rfl
  · refine Listed.opened (room := false) (e := s.bay b) ?_ (by rw [linkMap_bay]) ⟨[], [], by simp [hreports], by simp, ?_⟩ true
    · rw [hplaces]
      exact listed_of_feeders h.listed (linkMap_feeders a b s)
    · rw [hold, hplace]
      exact .stays _
  · rw [hbay]
    split
    · exact Sound.of_none hgrant
    · exact h.sound c

theorem Agree.unmaps {s : State} (h : Agree s) {a : RadioAddr} {b : BayNo} (hab : (a, b) ∈ s.pairs) :
    Agree (Machine.opened b (startWork b (linkUnmap a b s)).unmapTag true (linkUnmap a b s)) := by
  have hbook := unmapTag_booked false (w := startWork b (linkUnmap a b s)) rfl
  have htell := unmapTag_tells (startWork b (linkUnmap a b s)) rfl
  have hblank := unmapTag_blank (w := startWork b (linkUnmap a b s)) (h.occupied.blank b)
  obtain ⟨hocc, hradio, hstate, hpend, hgrant, -, -⟩ := unmapTag_fields (startWork b (linkUnmap a b s))
  generalize (startWork b (linkUnmap a b s)).unmapTag = w at hbook htell hblank hocc hradio hstate hpend hgrant
  have hbay : ∀ c, (Machine.opened b w true (linkUnmap a b s)).bay c = if b = c then { w.bay with inFlight := true } else s.bay c :=
    fun c => opened_bay b w true _ c
  refine ⟨h.occupied.unmaps hab ?_ hbay hocc hradio hstate hpend hblank, ?_, ?_, fun c => ?_⟩
  · rw [State.pairs, opened_link]
    exact linkUnmap_pairs a b s
  · rw [opened_orders, opened_pends, hpend]
    have hleft : Pends (linkUnmap a b s).sources.orders (Function.update s.pends b false) := h.pends.leaves b
    have := hleft.tells b w.orders
    rwa [Function.update_self, Function.update_idem, htell] at this
  · exact Listed.opened (s := linkUnmap a b s) (e := (startWork b (linkUnmap a b s)).bay) (listed_of_feeders h.listed rfl) rfl hbook true
  · rw [hbay]
    split
    · exact Sound.of_none hgrant
    · exact h.sound c

/-- Every deed keeps the tables in step. -/
theorem Deed.agree {s t : State} (h : Deed True s t) (hs : Agree s) : Agree t := by
  cases h with
  | opens b w full _ _ _ work => exact hs.opened work.booked work.tells work.housed (work.sound (hs.sound b)) full
  | maps a b k _ _ _ new vacant => exact hs.maps k new vacant
  | unmaps a b _ _ _ _ named =>
    obtain ⟨t, ht, hr, hb⟩ := named trivial
    exact hs.unmaps (List.mem_map.2 ⟨t, ht, by rw [hr, hb]⟩)
  | grants f b _ _ _ queued => exact hs.grant queued
  | finishes r => rw [finish_eq]; exact hs.of_same rfl rfl rfl rfl
  | lists b => exact hs.setBay ⟨rfl, rfl, rfl, rfl, rfl, rfl, rfl, rfl, rfl⟩
  | fetches =>
    unfold fetchJudge
    split
    · exact hs
    · split
      · exact hs.of_same rfl rfl rfl rfl
      · exact hs
  | progresses | hands | counts | wants => exact hs.of_same rfl rfl rfl rfl

theorem Deeds.agree {s t : State} (h : Deeds True s t) (hs : Agree s) : Agree t :=
  h.keeps (fun _ _ hd => hd.agree) hs

end Sys2Proof.Machine

/-! PROOFS. R115, R116: a feeder that trips revokes its grants and keeps the tables in step; and with it every change of a
step does. -/

namespace Sys2Proof.Machine

/-! ## Revocation -/

/-- A revocation is of a granted bay, which it takes to the queue or to the self-started of its feeder (R115). -/
theorem revoke_spec (f : FeederNo) (w : Work) :
    (w.bay.defrost.state.granted = false → w.revoke f = w)
      ∧ (w.bay.defrost.state.granted = true → (w.revoke f).bay.defrost.grantFeeder = none
        ∧ (w.revoke f).bay.place = if w.bay.defrost.state = .ordered then .queue w.bay.feeder else .self w.bay.feeder) := by
  have hdue : ∀ u : Work, u.bay.feeder = w.bay.feeder →
      ((u.defrost { u.bay.defrost with state := .due, reason := .queued }).setTimer .defrost .stopped).bay.place
        = .queue w.bay.feeder := fun u hu => by
    rw [← hu, place_queue_iff]
    exact ⟨rfl, rfl, rfl⟩
  have hself : ∀ u : Work, u.bay.feeder = w.bay.feeder →
      ((u.defrost { u.bay.defrost with state := .self }).setTimer .defrost .stopped).bay.place = .self w.bay.feeder :=
    fun u hu => by rw [← hu]; rfl
  have hnone : ∀ u : Work, Stays (w.defrost { w.bay.defrost with grantFeeder := none }) u →
      u.bay.defrost.grantFeeder = none ∧ u.bay.feeder = w.bay.feeder := fun u hu => ⟨hu.grantFeeder, hu.feeder⟩
  refine ⟨fun hg => ?_, fun hg => ?_⟩
  · unfold Work.revoke
    simp only []
    split
    case h_1 hs => rw [hs] at hg; cases hg
    case h_2 hs => rw [hs] at hg; cases hg
    case h_3 hs => rw [hs] at hg; cases hg
    all_goals rfl
  · unfold Work.revoke
    simp only []
    split
    case h_1 hs =>
      rw [if_pos hs]
      split
      · obtain ⟨hn, hf⟩ := hnone _ (stays_withdrawStart _)
        exact ⟨hn, hdue _ hf⟩
      · obtain ⟨hn, hf⟩ := hnone _ (stays_pendOrder _ .stop (some f))
        exact ⟨hn, hdue _ hf⟩
    case h_2 hs =>
      obtain ⟨hn, hf⟩ := hnone _ (stays_withdrawStart _)
      rw [if_neg (by rw [hs]; decide)]
      exact ⟨hn, hself _ hf⟩
    case h_3 hs =>
      rw [if_neg (by rw [hs]; decide)]
      exact ⟨rfl, hself _ rfl⟩
    all_goals
      rename_i hs
      rw [hs] at hg
      cases hg

theorem revoke_sounds (f : FeederNo) (w : Work) : Sounds w (w.revoke f) := by
  intro hs
  cases hg : w.bay.defrost.state.granted with
  | false => rw [(revoke_spec f w).1 hg]; exact hs
  | true => exact Sound.of_none ((revoke_spec f w).2 hg).1

theorem revoke_housed (f : FeederNo) (w : Work) : Housed w.bay (w.revoke f).bay := by
  have hsteady := (reworks_revoke f w).steady
  refine ⟨hsteady.occupied, hsteady.radio, fun _ hs hp => ?_, hsteady.blank⟩
  rw [(revoke_spec f w).1 (by rw [hs]; rfl)]
  exact ⟨hs, hp⟩

theorem revokeOne_bay (f : FeederNo) (s : State) (b c : BayNo) :
    (revokeOne f s b).bay c = if b = c then ((Work.start (s.bay b)).revoke f).bay else s.bay c := setBay_bay s b c _

/-- The bays revoked, once each. -/
theorem revoked_bay (f : FeederNo) {l : List BayNo} (hl : l.Nodup) (s : State) (c : BayNo) :
    (l.foldl (revokeOne f) s).bay c = if c ∈ l then ((Work.start (s.bay c)).revoke f).bay else s.bay c := by
  induction l generalizing s with
  | nil => rfl
  | cons b rest ih =>
    obtain ⟨hb, hrest⟩ := List.nodup_cons.1 hl
    rw [List.foldl_cons, ih hrest]
    simp only [revokeOne_bay, List.mem_cons]
    by_cases hbc : b = c
    · subst hbc
      simp [hb]
    · simp [hbc, Ne.symm hbc]

theorem revoked_feeders (f : FeederNo) (l : List BayNo) (s : State) : (l.foldl (revokeOne f) s).feeders = s.feeders := by
  induction l generalizing s with
  | nil => rfl
  | cons b rest ih => exact ih _

theorem revokeOne_occupied (f : FeederNo) {s : State} (b : BayNo) (h : Occupied s) : Occupied (revokeOne f s b) := by
  refine h.housed rfl fun c => ?_
  rw [revokeOne_bay]
  split
  · rename_i hc
    exact hc ▸ revoke_housed f (Work.start (s.bay b))
  · exact .refl _

theorem revokeOne_pends (f : FeederNo) {s : State} (b : BayNo) (h : Pends s.sources.orders s.pends) :
    Pends (revokeOne f s b).sources.orders (revokeOne f s b).pends := by
  obtain ⟨os, ho, hp⟩ := (reworks_revoke f (Work.start (s.bay b))).tells
  have hpends : (revokeOne f s b).pends
      = Function.update s.pends b ((Work.start (s.bay b)).revoke f).bay.defrost.pending.isSome := by
    funext c
    simp only [State.pends, revokeOne_bay]
    by_cases hc : b = c
    · subst hc
      rw [if_pos rfl, Function.update_self]
    · rw [if_neg hc, Function.update_of_ne (Ne.symm hc)]
      rfl
  rw [hpends, hp]
  have := h.tells b os
  have horders : (revokeOne f s b).sources.orders = (tellOrders b os s).sources.orders := by
    unfold revokeOne
    simp only [ho]
    rfl
  rw [horders]
  exact this

theorem foldl_keeps {α : Type} {P : State → Prop} {g : State → α → State} (h : ∀ s a, P s → P (g s a)) (l : List α)
    {s : State} (hs : P s) : P (l.foldl g s) := by
  induction l generalizing s with
  | nil => exact hs
  | cons a rest ih => exact ih (h s a hs)

/-- The place of a bay once feeder `f` has tripped: its grants are revoked to its queue or to the self-started (R115). -/
def trippedPlace (s : State) (f : FeederNo) (b : BayNo) : Place :=
  if b ∈ (s.feeder f).grants then if s.revokedToDue b then .queue f else .self f else s.places b

theorem selfs_tripped {s : State} {f : FeederNo} (h : Fits (s.feeder f) f s.places) :
    selfs (trippedPlace s f) f = selfs s.places f
      + ((s.feeder f).grants.length - ((s.feeder f).grants.filter s.revokedToDue).length) := by
  have hlen := List.length_eq_length_filter_add (l := (s.feeder f).grants) s.revokedToDue
  have hset : (Finset.univ.filter fun b => (trippedPlace s f b).isSelf f = true)
      = (Finset.univ.filter fun b => (s.places b).isSelf f = true)
        ∪ ((s.feeder f).grants.filter fun b => !s.revokedToDue b).toFinset := by
    ext b
    simp only [Finset.mem_filter, Finset.mem_univ, true_and, Finset.mem_union, List.mem_toFinset, List.mem_filter]
    unfold trippedPlace
    by_cases hb : b ∈ (s.feeder f).grants
    · have hp := (h.granted b).1 hb
      cases hd : s.revokedToDue b <;> simp [hb, hp, Place.isSelf]
    · simp [hb]
  have hdisj : Disjoint (Finset.univ.filter fun b => (s.places b).isSelf f = true)
      ((s.feeder f).grants.filter fun b => !s.revokedToDue b).toFinset := by
    rw [Finset.disjoint_left]
    intro b hb hg
    simp only [List.mem_toFinset, List.mem_filter] at hg
    rw [Finset.mem_filter, (h.granted b).1 hg.1] at hb
    cases hb.2
  unfold selfs
  rw [hset, Finset.card_union_of_disjoint hdisj, List.toFinset_card_of_nodup (h.grants.filter _)]
  omega

theorem fits_tripped {s : State} {f : FeederNo} (h : Fits (s.feeder f) f s.places) (now : Time) :
    Fits ((s.feeder f).trip now ((s.feeder f).grants.filter s.revokedToDue)
      ((s.feeder f).grants.length - ((s.feeder f).grants.filter s.revokedToDue).length)) f (trippedPlace s f) where
  grants := List.nodup_nil
  granted b := by
    refine ⟨nofun, fun hp => ?_⟩
    unfold trippedPlace at hp
    split at hp
    · split at hp <;> cases hp
    · rename_i hb
      exact absurd ((h.granted b).2 hp) hb
  queue := by
    simp only [Feeder.trip, List.map_append, List.map_map, Function.comp_def, List.map_id']
    refine List.nodup_append.2 ⟨h.grants.filter _, h.queue, fun b hb c hc => ?_⟩
    rintro rfl
    have hg := (h.granted b).1 (List.mem_filter.1 hb).1
    rw [(h.queued b).1 hc] at hg
    cases hg
  queued b := by
    simp only [Feeder.trip, List.map_append, List.map_map, Function.comp_def, List.map_id', List.mem_append,
      List.mem_filter, h.queued, trippedPlace]
    by_cases hb : b ∈ (s.feeder f).grants
    · have hp := (h.granted b).1 hb
      cases hd : s.revokedToDue b <;> simp [hb, hp]
    · simp [hb]
  count := by
    rw [selfs_tripped h, ← h.count]
    rfl

theorem fits_elsewhere_tripped {s : State} {f g : FeederNo} (h : Listed s s.places) (hg : f ≠ g) :
    Fits (s.feeder g) g (trippedPlace s f) := by
  have hplace : ∀ b, (trippedPlace s f b = .grant g ↔ s.places b = .grant g)
      ∧ (trippedPlace s f b = .queue g ↔ s.places b = .queue g)
      ∧ (trippedPlace s f b).isSelf g = (s.places b).isSelf g := fun b => by
    unfold trippedPlace
    by_cases hb : b ∈ (s.feeder f).grants
    · have hp := ((h f).granted b).1 hb
      cases hd : s.revokedToDue b <;> simp [hb, hp, hg, Place.isSelf]
    · simp [hb]
  obtain ⟨h1, h2, h3, h4, h5⟩ := h g
  refine ⟨h1, fun b => (h2 b).trans (hplace b).1.symm, h3, fun b => (h4 b).trans (hplace b).2.1.symm, h5.trans ?_⟩
  unfold selfs
  simp only [fun b => (hplace b).2.2]

theorem raiseFeeder_agree {f : FeederNo} {c : Condition} {s : State} (h : Agree s) : Agree (raiseFeeder f c s) := by
  unfold raiseFeeder
  split
  · exact h
  · exact h.of_same rfl rfl rfl rfl

theorem tripFeeder_agree (f : FeederNo) {s : State} (h : Agree s) : Agree (tripFeeder f s) := by
  simp only [tripFeeder]
  refine foldl_keeps (fun u b hu => (offerHeld_deeds b (by simp) u).agree hu) _ ?_
  refine (raiseFeeder_agree ?_).of_same (t := State.wantRewrite _) rfl rfl rfl rfl
  have hfit := h.listed f
  have hbay := revoked_bay f hfit.grants s
  have hfeeders := revoked_feeders f (s.feeder f).grants s
  have hocc := foldl_keeps (fun u b hu => revokeOne_occupied f b hu) (s.feeder f).grants h.occupied
  have hpend := foldl_keeps (P := fun u => Pends u.sources.orders u.pends) (fun u b hu => revokeOne_pends f b hu)
    (s.feeder f).grants h.pends
  have hx := fits_tripped hfit s.now
  generalize (s.feeder f).grants.foldl (revokeOne f) s = u at hbay hfeeders hocc hpend
  generalize Feeder.trip _ _ _ _ = x at hx
  have hplaces : (u.setFeeder f x).places = trippedPlace s f := by
    funext b
    show (u.bay b).place = _
    rw [hbay]
    unfold trippedPlace
    split
    · rename_i hb
      obtain ⟨hg, hgf⟩ := (place_grant_iff _ _).1 ((hfit.granted b).1 hb)
      rw [((revoke_spec f (Work.start (s.bay b))).2 hg).2]
      have hf : (Work.start (s.bay b)).bay.feeder = f := (h.sound b f hgf).2
      rw [hf]
      simp only [State.revokedToDue, beq_iff_eq]
      rfl
    · rfl
  refine ⟨hocc.housed rfl fun b => .refl _, hpend, fun g => ?_, fun b => ?_⟩
  · rw [hplaces, setFeeder_feeder]
    split
    · rename_i hg
      exact hg ▸ hx
    · rename_i hg
      have hsame : u.feeder g = s.feeder g := by simp only [State.feeder, hfeeders]
      rw [hsame]
      exact fits_elsewhere_tripped h.listed hg
  · show (u.bay b).Sound
    rw [hbay]
    split
    · exact revoke_sounds f (Work.start (s.bay b)) (h.sound b)
    · exact h.sound b

end Sys2Proof.Machine

/-! PROOFS. O58, O59, O60: the tables agree with one another after every step. -/

namespace Sys2Proof.Machine

/-! ## Changes -/

theorem blank_agree (p : List Instr) (pins : Pins) (m : Memory) (n : Nat) : Agree (State.blank p pins m n) := by
  have hplace : (State.blank p pins m n).places = fun _ => .nowhere := funext fun b => by
    simp only [State.places, blank_bay]
    rfl
  refine ⟨⟨List.nodup_nil, List.nodup_nil, nofun, fun b => ?_, fun b _ => ?_, fun b => ?_⟩, ⟨List.nodup_nil, fun b => ?_⟩,
    fun f => ?_, fun b => ?_⟩
  · rw [blank_bay]
    exact nofun
  · rw [blank_bay]
    exact ⟨rfl, rfl, rfl⟩
  · rw [blank_bay]
    exact fun _ => rfl
  · simp only [State.pends, blank_bay]
    exact ⟨nofun, nofun⟩
  · rw [blank_feeder, hplace]
    exact ⟨List.nodup_nil, fun _ => ⟨nofun, nofun⟩, List.nodup_nil, fun _ => ⟨nofun, nofun⟩, by simp [selfs, Place.isSelf, Feeder.reset]⟩
  · rw [blank_bay]
    exact Sound.of_none rfl

/-- A claimed order leaves the order list with the bay's slot (R85). -/
theorem claim_agree {s : State} (x : Source) (h : Agree s) : Agree (claim s x) := by
  cases x with
  | feeder f | tag k | alert i => exact h.of_same rfl rfl rfl rfl
  | order b =>
    have hbay : ∀ c, (claim s (.order b)).bay c = if b = c then
        { s.bay b with defrost := { (s.bay b).defrost with pending := none } } else s.bay c := fun c => setBay_bay s b c _
    refine ⟨h.occupied.housed rfl fun c => ?_, ?_, ?_, fun c => ?_⟩
    · rw [hbay]
      split
      · rename_i hc
        subst hc
        exact ⟨rfl, rfl, fun _ hs _ => ⟨hs, rfl⟩, id⟩
      · exact .refl _
    · have hpends : (claim s (.order b)).pends = Function.update s.pends b false := by
        funext c
        simp only [State.pends, hbay]
        by_cases hc : b = c
        · subst hc
          rw [if_pos rfl, Function.update_self]
          rfl
        · rw [if_neg hc, Function.update_of_ne (Ne.symm hc)]
          rfl
      rw [hpends]
      exact h.pends.leaves b
    · have hplaces : (claim s (.order b)).places = s.places := by
        funext c
        simp only [State.places, hbay]
        split
        · rename_i hc
          subst hc
          rfl
        · rfl
      rw [hplaces]
      exact h.listed
    · rw [hbay]
      split
      · rename_i hc
        subst hc
        exact h.sound b
      · exact h.sound c

theorem CommandLaw.named {s : State} (h : CommandLaw s) {b : BayNo}
    (hp : s.mailbox.progress = .awaitsTurn b ∨ s.mailbox.progress = .awaitsUnlock b) : Named b s :=
  fun cmd hcur h7 => ((((commandLaw_iff s).1 h).2 b).named cmd hp hcur).2 h7

theorem CommandLaw.waits_named {s : State} (h : CommandLaw s) {b : BayNo} (hw : .command ∈ (s.bay b).waiting) : Named b s :=
  h.named (.inl ((((commandLaw_iff s).1 h).2 b).turn.2 hw))

theorem unlocked_agree {l : BayLock} {s : State} (h : Agree s) (hc : CommandLaw s) :
    Agree (unlocked l.bay { s with access := { s.access with lock := none } }) := by
  refine (unlocked_deeds fun _ hw => ?_).agree (h.of_same rfl rfl rfl rfl)
  rcases hw with hp | hw
  · exact hc.named (.inr hp)
  · exact absurd hw (hc.held l.bay)

theorem endUpdate_agree {b : BayNo} {s : State} (h : Agree s) (hc : CommandLaw s) : Agree (endUpdate b s) :=
  (endUpdate_deeds fun _ hw => hc.waits_named hw).agree (h.setBay ⟨rfl, rfl, rfl, rfl, rfl, rfl, rfl, rfl, rfl⟩)

theorem Configured.agree {s u : State} (h : Configured s u) (hs : Agree s) : Agree u := by
  have hbay : ∀ b, u.bay b = s.bay b := fun b => by
    rw [h.rest]
    rfl
  refine hs.alike (fun b => by rw [hbay]; exact .refl _) ?_ (by rw [h.rest]) fun f => ?_
  · have hmap : u.link.tagMap = s.link.tagMap := by rw [h.link]
    simp only [State.pairs, hmap]
  · rw [h.feeder f]
    exact ⟨rfl, rfl, rfl⟩

theorem takeCommand_frame (cmd : Command) (s : State) :
    (s.takeCommand cmd).link = s.link ∧ (s.takeCommand cmd).sources = s.sources := by
  simp only [State.takeCommand, State.leaveDone]
  split <;> exact ⟨rfl, rfl⟩

theorem takeAndRun_agree (code : Word) {s : State} (h : Agree s) : Agree (takeAndRun code s) := by
  obtain ⟨u, hu, hrun⟩ := takeAndRun_deeds (lawful := True) code s
  obtain ⟨hlink, hsources⟩ := takeCommand_frame (s.mailbox.commandOf code) s
  exact hrun.agree (hu.agree (h.of_same (takeCommand_bays _ s) (by rw [hlink]) (by rw [hsources]) (takeCommand_feeders _ s)))

theorem Answer.agree {r : Request} {s t : State} (h : Answer r s t) (hs : Agree s) : Agree t := by
  cases h with
  | delays =>
    refine Agree.of_same (s := s.addEntry (readKey r)) ?_ rfl rfl rfl rfl
    unfold State.addEntry
    split
    · exact hs.of_same rfl rfl rfl rfl
    · exact hs
  | acknowledges =>
    refine Agree.of_same (s := acknowledge s) ?_ rfl rfl rfl rfl
    unfold acknowledge
    split
    · exact hs.of_same rfl rfl rfl rfl
    · exact hs
  | commands code => exact (takeAndRun_agree code hs).of_same rfl rfl rfl rfl
  | sets b x =>
    have hset : Agree (s.setBay b { s.bay b with settings := x }) :=
      hs.setBay ⟨rfl, rfl, rfl, rfl, rfl, rfl, rfl, rfl, rfl⟩
    exact hset.of_same rfl rfl rfl rfl
  | completes | queues | delivers | passes | locks | consumes => exact hs.of_same rfl rfl rfl rfl

theorem finishRequest_agree (r : Request) (data : List Word) {s : State} (p : Path) (h : Agree s) :
    Agree (finishRequest r data s p) := by
  cases p with
  | plain | commandWord | consumerIndex | settings b => exact h.of_same rfl rfl rfl rfl
  | argument x => cases x <;> exact h.of_same rfl rfl rfl rfl
  | bayRead b overtaken =>
    simp only [finishRequest, rejudgeRead, State.addEntry]
    split_ifs <;> exact h.of_same rfl rfl rfl rfl

theorem Occupied.nodup_radio {s : State} (h : Occupied s) : (s.link.tagMap.map TagEntry.radio).Nodup := by
  have hmap : s.pairs.map Prod.fst = s.link.tagMap.map TagEntry.radio := by simp [State.pairs]
  exact hmap ▸ h.radios

/-- An entry of the Feeder Table is put that lists the same bays. -/
theorem Agree.setFeeder {s : State} (h : Agree s) {f : FeederNo} {x : Feeder} (hg : x.grants = (s.feeder f).grants)
    (hq : x.queue = (s.feeder f).queue) (hc : x.selfCount = (s.feeder f).selfCount) : Agree (s.setFeeder f x) := by
  refine h.alike (fun b => .refl _) rfl rfl fun g => ?_
  rw [setFeeder_feeder]
  split
  · rename_i hfg
    subst hfg
    exact ⟨hg, hq, hc⟩
  · exact ⟨rfl, rfl, rfl⟩

theorem Taken.agree {s u : State} (ht : Taken s u) (h : Agree s) : Agree u := by
  have hn := h.occupied.nodup_radio
  obtain ⟨⟨g, hg, hr, hb⟩, ho, hrest⟩ := ht
  have hpairs : u.pairs = s.pairs := by
    simp only [State.pairs, hg, List.map_map]
    exact List.map_congr_left fun x hx => by simp only [Function.comp, hr, hb hn x hx]
  refine h.alike (fun b => ?_) hpairs ho fun f => ?_
  · rw [hrest]
    exact .refl _
  · rw [hrest]
    exact ⟨rfl, rfl, rfl⟩

theorem takeEntry_agree (e : InboxEntry) {s : State} (h : Agree s) : Agree (takeEntry e s) := by
  obtain ⟨u, hu, ht⟩ := takeEntry_handsOn e s
  have hsame := hu.agree h
  rcases ht with ht | ⟨x, ht⟩ <;> rw [ht]
  · exact hsame
  · exact (handOn_deeds x u).agree hsame

theorem putTimer_alike (e : BayEntry) (t : BayTimer) (x : Timer) : Alike e (e.putTimer t x) := by
  cases t <;> exact ⟨rfl, rfl, rfl, rfl, rfl, rfl, rfl, rfl, rfl⟩

theorem becomeActive_agree (f : FeederNo) {s : State} (h : Agree s) : Agree (becomeActive f s) := by
  unfold becomeActive
  simp only []
  have hset : Agree (s.setFeeder f { s.feeder f with state := .active, timer := .stopped }) := h.setFeeder rfl rfl rfl
  have hraise := raiseFeeder_agree (f := f) (c := (s.feeder f).restored s.now) hset
  exact (act_deeds f _).agree (hraise.of_same (t := State.wantRewrite _) rfl rfl rfl rfl)

theorem startRestore_agree (f : FeederNo) {s : State} (h : Agree s) : Agree (startRestore f s) := by
  unfold startRestore
  have hset : Agree (s.setFeeder f { s.feeder f with state := .restoring, timer := .start s.params.restoreDelay }) :=
    h.setFeeder rfl rfl rfl
  exact hset.of_same rfl rfl rfl rfl

theorem tick_feeder (s : State) (f : FeederNo) :
    State.feeder { s with bays := s.bays.map BayEntry.tick, feeders := s.feeders.map Feeder.tick } f = (s.feeder f).tick := by
  simp [State.feeder]

theorem tickTimers_agree {s : State} (h : Agree s) : Agree (tickTimers s) := by
  unfold tickTimers
  split
  · refine h.alike (fun b => ?_) rfl rfl fun f => ?_
    · rw [tick_bay]
      exact ⟨rfl, rfl, rfl, rfl, rfl, rfl, rfl, rfl, rfl⟩
    · rw [tick_feeder]
      exact ⟨rfl, rfl, rfl⟩
  · exact h

theorem yardTick_agree {s : State} (h : Agree s) : Agree (yardTick s) := by
  unfold yardTick counterRewrite
  have ht : Agree (tickTimers (tickClock (passPeriods (secondPeriods - s.clock.base) s))) :=
    tickTimers_agree (h.of_same rfl rfl rfl rfl)
  split
  · exact ht.of_same rfl rfl rfl rfl
  · exact ht

theorem finishFetch_agree {x : Fetch} {s : State} (h : Agree s) : Agree (finishFetch x s) := by
  simp only [finishFetch]
  refine (Deed.fetches (lawful := True) _).agree ?_
  split <;> exact h.of_same rfl rfl rfl rfl

/-- Every change keeps the tables in step, where the law of the commands holds. -/
theorem Change.agree {s t : State} (h : Change s t) (hc : CommandLaw s) (hs : Agree s) : Agree t := by
  cases h with
  | queue | line | counts | clearsAnswer | grantsPort | reclaims | noticeEnds | firstBurstEnds | passes | resultEnds =>
    exact hs.of_same rfl rfl rfl rfl
  | resetFalls => exact blank_agree _ _ _ _
  | resetReleases memsize =>
    exact (blank_agree s.pending { s.pins with resetN := true, memsize := memsize, attnN := true } s.mem
      s.freeUsed).of_same rfl rfl rfl rfl
  | claims x => exact claim_agree x hs
  | presents => rw [statusSettle_eq]; exact hs.of_same rfl rfl rfl rfl
  | haltCompletes =>
    unfold completeHalt
    rw [finish_eq]
    exact hs.of_same rfl rfl rfl rfl
  | unlocks l => exact unlocked_agree hs hc
  | answers r => exact (answer_cases r s).agree hs
  | requestEnds o => exact finishRequest_agree _ _ _ (hs.of_same rfl rfl rfl rfl)
  | updateEnds x => exact endUpdate_agree (hs.of_same rfl rfl rfl rfl) (hc.of_same rfl rfl rfl rfl rfl rfl rfl)
  | blockEnds n =>
    unfold State.presentPending State.afterBlock
    split_ifs <;> exact hs.of_same rfl rfl rfl rfl
  | fetchEnds x => exact finishFetch_agree hs
  | takes e rest => exact takeEntry_agree e (hs.of_same rfl rfl rfl rfl)
  | expires b x => exact (offerHeld_deeds b (by simp) _).agree (hs.setBay (putTimer_alike _ x _))
  | activates f => exact becomeActive_agree f hs
  | restores f => exact startRestore_agree f hs
  | trips f => exact tripFeeder_agree f hs
  | ticks => exact yardTick_agree hs

/-! ## Steps -/

/-- What every step keeps: the events in order, the law of the commands, and the tables in step. -/
structure InStep (s : State) : Prop where
  ordered : OrderedBut none s
  commands : CommandLaw s
  agree : Agree s

theorem inStep_iff (s : State) : InStep s ↔ EventsInOrder s ∧ TablesAgree s := by
  constructor
  · rintro ⟨ho, hc, ha⟩
    exact ⟨(eventsInOrder_iff s).2 ho, hc, (agree_iff s).1 ha⟩
  · rintro ⟨ho, hc, ha⟩
    exact ⟨(eventsInOrder_iff s).1 ho, hc, (agree_iff s).2 ha⟩

theorem Change.inStep {s t : State} (h : Change s t) (hs : InStep s) : InStep t := by
  have hn := hs.agree.occupied.nodup_radio
  exact ⟨h.ordered hs.ordered, h.commandLaw hs.ordered hn hs.commands, h.agree hs.commands hs.agree⟩

theorem step_inStep {s t : State} (ht : TablesAgree s) (he : EventsInOrder s) (h : step s = .next t) : InStep t :=
  step_keeps (fun _ _ hc => hc.inStep) ((inStep_iff s).2 ⟨he, ht⟩) h

/-- Settles O58: each change of a step keeps the ring's shadow (`Change.shadow`), and the order list in step with the bays
(`Change.inStep`). -/
theorem noticeSourcesStayInStep : Obligations.NoticeSourcesStayInStep := by
  unfold Obligations.NoticeSourcesStayInStep
  exact ⟨fun _ _ => step_shadowUnique, fun _ t ht he h => (ordersAgree_iff t).2 (step_inStep ht he h).agree.pends⟩

/-- Settles O59: the reports of every update account for its bay's place in the Feeder Table (`Ledger.listed`), and a trip
moves its grants (`fits_tripped`). -/
theorem feederListsStayInStep : Obligations.FeederListsStayInStep := by
  unfold Obligations.FeederListsStayInStep
  intro s t ht he h
  have hs := (step_inStep ht he h).agree
  exact (feedersAgree_iff t).2 ⟨hs.listed, hs.sound⟩

/-- Settles O60: each change of a step keeps the Tag Map in step with the bays and the law of the commands
(`Change.inStep`). -/
theorem occupancyAndCommandsStayInStep : Obligations.OccupancyAndCommandsStayInStep := by
  unfold Obligations.OccupancyAndCommandsStayInStep
  intro s t ht he h
  have hs := step_inStep ht he h
  exact ⟨(occupancyAgrees_iff t).2 hs.agree.occupied, hs.commands⟩

end Sys2Proof.Machine

/-! PROOFS. O53: the states after reset, and after a release of RESET_N, meet the invariants. -/

namespace Sys2Proof.Machine

/-- The invariants that every step keeps (O54-O60), but for record memory's. -/
structure Invariants (s : State) : Prop where
  windows : WindowsValid s
  bounded : TablesBounded s
  quiet : PassQuiet s
  shadow : ShadowUnique s
  feeders : FeederLaw s
  bursts : BurstsFollowUpdates s
  inStep : InStep s

theorem blank_shadow (p : List Instr) (pins : Pins) (m : Memory) (n : Nat) : ShadowUnique (State.blank p pins m n) := by
  intro i j x hi
  have hnone : (State.blank p pins m n).ring.shadow[i] = none := by simp [State.blank, Ring.reset]
  rw [hnone] at hi
  cases hi

theorem blank_invariants (p : List Instr) (pins : Pins) (m : Memory) (n : Nat) : Invariants (State.blank p pins m n) where
  windows := (windowsValid_iff _).2 (Decoder.valid_off _)
  bounded := blank_bounded p pins m n
  quiet := (passQuiet_iff _).2 fun _ => blank_quiet p pins m n
  shadow := blank_shadow p pins m n
  feeders := blank_feederLaw p pins m n
  bursts := blank_burstsFollow p pins m n
  inStep := ⟨blank_ordered p pins m n, blank_law p pins m n, blank_agree p pins m n⟩

/-- The Status Writer's own state, without a result word, is in none of the invariants. -/
theorem Invariants.of_status {s t : State} (h : Invariants s) (ht : t = { s with status := t.status })
    (hp : t.status.resultPending = s.status.resultPending) (hs : t.resultPresented = s.resultPresented) : Invariants t := by
  have hc : CommandLaw t := by
    refine h.inStep.commands.calm ⟨by rw [ht]; exact .of_same rfl rfl, ?_⟩
    exact ⟨by rw [ht], by rw [ht], by rw [ht], hp, hs, by rw [ht], fun x hx => ⟨x, by rwa [ht], rfl, rfl⟩⟩
  refine ⟨?_, ?_, ?_, ?_, ?_, ?_, ⟨?_, hc, ?_⟩⟩
  · rw [ht]; exact h.windows
  · rw [ht]; exact h.bounded
  · rw [ht]; exact h.quiet
  · rw [ht]; exact h.shadow
  · rw [ht]; exact h.feeders
  · rw [ht]; exact h.bursts
  · rw [ht]; exact h.inStep.ordered
  · rw [ht]; exact h.inStep.agree.of_same rfl rfl rfl rfl

theorem reset_invariants : Invariants State.reset :=
  (blank_invariants [] ⟨true, Config.resetStraps, Vector.replicate 8 true, true⟩ [] 0).of_status rfl rfl rfl

theorem releaseReset_invariants (m : BitVec 2) (s : State) : Invariants (releaseReset m s) :=
  (blank_invariants s.pending { s.pins with resetN := true, memsize := m, attnN := true } s.mem s.freeUsed).of_status rfl rfl rfl

theorem Change.invariants {s t : State} (h : Change s t) (hw : WindowsValid t) (hs : Invariants s) : Invariants t where
  windows := hw
  bounded := h.bounded hs.bounded
  quiet := h.passQuiet hs.quiet
  shadow := h.shadow.unique hs.shadow
  feeders := h.feederLaw hs.feeders
  bursts := h.burstsFollow hs.bursts
  inStep := h.inStep hs.inStep

theorem windowsValid_of_decoder {s t : State} (h : WindowsValid s) (hd : t.decoder = s.decoder) : WindowsValid t := by
  rw [windowsValid_iff] at *
  rwa [hd]

theorem settle_invariants {s : State} (h : Invariants s) : Invariants (settle s) := by
  have hnotice : Invariants (noticeSettle s) := by
    unfold noticeSettle
    split
    · rename_i x hx
      exact (Change.claims x s hx).invariants (windowsValid_of_decoder h.windows (by cases x <;> rfl)) h
    · exact h
  refine (Change.presents (noticeSettle s)).invariants (windowsValid_of_decoder hnotice.windows ?_) hnotice
  rw [statusSettle_eq]

theorem settle_canonical {s : State} (h : MemoryCanonical s) : MemoryCanonical (settle s) :=
  (settle_changes s).keeps (fun _ _ hc => hc.canonical) h

/-- Settles O53: `reset_invariants`, and a step's end keeps what holds of the part just released (`releaseReset_invariants`). -/
theorem resetMeetsTheInvariants : Obligations.ResetMeetsTheInvariants := by
  unfold Obligations.ResetMeetsTheInvariants
  refine ⟨?_, fun s t m hlow h => ?_⟩
  · obtain ⟨hw, hb, hq, hs, hf, hbu, hi⟩ := reset_invariants
    obtain ⟨he, ht⟩ := (inStep_iff _).1 hi
    exact ⟨rfl, hw, hb, hq, hs, hf, hbu, he, ht⟩
  · have ht : t = settle (releaseReset m s) := by
      have hexec : exec (.resetNRelease m) s = .next (settle (releaseReset m s)) := by
        simp only [exec, execResetNRelease, hlow, Bool.false_eq_true, if_false]
      rw [hexec] at h
      cases h
      rfl
    rw [ht]
    obtain ⟨hw, hb, hq, hs, hf, hbu, hi⟩ := settle_invariants (releaseReset_invariants m s)
    obtain ⟨he, htab⟩ := (inStep_iff _).1 hi
    exact ⟨fun hm => settle_canonical (show MemoryCanonical (releaseReset m s) from hm), hw, hb, hq, hs, hf, hbu, he, htab⟩

end Sys2Proof.Machine

/-! PROOFS. O1, O2, O3: the queue's front, the commands that stop, and the request each row spells. -/

namespace Sys2Proof.Machine

/-- Settles O1, by the definition of a step. -/
theorem stepRunsTheFrontCommand : Obligations.StepRunsTheFrontCommand := by
  unfold Obligations.StepRunsTheFrontCommand
  exact fun c s => rfl

/-! ## Rows that present a request -/

theorem setupWord_eq (s : State) (i : Initiator) (k : Nat) (v : Word) : setupWord s i k v = setupWrite s.decoder i k v := rfl

/-- A row that presents a request presents it, when a bus can carry it. -/
theorem exec_of_request {s : State} {c : Instr} {r : Request} (h : requestOf s c = some r) :
    exec c s = if c.wellFormed then requestStep r s else .refused .illFormed := by
  cases c <;> simp only [requestOf, Option.some.injEq, reduceCtorEq] at h
  case argumentWrite i x v => cases x <;> (simp only [requestOf, Option.some.injEq] at h; subst h; rfl)
  all_goals
    subst h
    rfl

/-- A row's request is as well formed as the row. -/
theorem wellFormed_of_request {s : State} {c : Instr} {r : Request} (h : requestOf s c = some r) (hc : c.wellFormed = true) :
    r.wellFormed = true := by
  cases c <;> simp only [requestOf, Option.some.injEq, reduceCtorEq] at h
  case argumentWrite i x v => cases x <;> (simp only [requestOf, Option.some.injEq] at h; subst h; rfl)
  case plainRequest | inboxFrameWrite | bayRecordRead | lockedBayRecordRead | settingsWrite =>
    subst h
    exact hc
  all_goals
    subst h
    rfl

theorem exec_plainRequest {r : Request} (h : r.wellFormed = true) (s : State) : exec (.plainRequest r) s = requestStep r s := by
  rw [exec_of_request (c := .plainRequest r) rfl, if_pos (show (Instr.plainRequest r).wellFormed = true from h)]

/-- Settles O3: a row and the request it spells take the same step (`exec_of_request`). -/
theorem rowsPresentTheirRequest : Obligations.RowsPresentTheirRequest := by
  unfold Obligations.RowsPresentTheirRequest
  intro c r s h hc
  rw [exec_of_request h, if_pos hc, exec_plainRequest (wellFormed_of_request h hc)]

/-! ## What a command answers -/

theorem event_low {s : State} {c : State → Bool} {f : State → State} (h : s.pins.resetN = false) :
    event s c f = .next s := by
  simp [event, h]

/-- A row that presents no request answers a next state; with RESET_N low the same one, unless it moves a pin. -/
theorem exec_of_event {s : State} {c : Instr} (h : requestOf s c = none) :
    c.wellFormed = true ∧ (∃ t, exec c s = .next t)
      ∧ (s.pins.resetN = false → movesPin c = false → exec c s = .next s) := by
  have event_row : ∀ {c : Instr} {p : State → Bool} {f : State → State}, c.wellFormed = true → exec c s = event s p f →
      c.wellFormed = true ∧ (∃ t, exec c s = .next t)
        ∧ (s.pins.resetN = false → movesPin c = false → exec c s = .next s) := fun hc he =>
    ⟨hc, ⟨_, he⟩, fun hlow _ => by rw [he, event_low hlow]⟩
  cases c <;> simp only [requestOf, reduceCtorEq] at h
  case argumentWrite i x v => cases x <;> simp [requestOf] at h
  case haltComplete => exact ⟨rfl, ⟨_, rfl⟩, fun hlow _ => by simp [exec, execHaltComplete, hlow]⟩
  case feederOkFall f =>
    refine ⟨rfl, ?_, fun _ hm => by cases hm⟩
    simp only [exec, execFeederOkFall]
    split <;> exact ⟨_, rfl⟩
  case feederOkRise f =>
    refine ⟨rfl, ?_, fun _ hm => by cases hm⟩
    simp only [exec, execFeederOkRise]
    split <;> exact ⟨_, rfl⟩
  case resetNFall => exact ⟨rfl, ⟨_, rfl⟩, fun _ hm => by cases hm⟩
  case resetNRelease m => exact ⟨rfl, ⟨_, rfl⟩, fun _ hm => by cases hm⟩
  all_goals exact event_row rfl rfl

/-- Settles O2: a row presents a request (`exec_of_request`) or is an event (`exec_of_event`). -/
theorem onlyIllFormedCommandsStop : Obligations.OnlyIllFormedCommandsStop := by
  unfold Obligations.OnlyIllFormedCommandsStop
  refine ⟨fun c s => ?_, fun c s hc => ?_⟩
  · cases hr : requestOf s c with
    | none =>
      obtain ⟨hwell, hnext, -⟩ := exec_of_event hr
      exact ⟨fun _ => hnext, fun hill => by rw [hwell] at hill; cases hill⟩
    | some r =>
      rw [exec_of_request hr]
      exact ⟨fun hc => ⟨_, if_pos hc⟩, fun hc => by simp [hc]⟩
  · cases hr : requestOf s c with
    | none => exact ⟨(exec_of_event hr).2.2, fun _ _ h => absurd rfl h⟩
    | some r =>
      rw [exec_of_request hr, if_pos hc]
      refine ⟨fun hlow _ => event_low hlow, fun hlive hout _ => ?_⟩
      unfold requestStep
      rw [event_of_live hlive]
      have hn : s.front.outstanding.isNone = false := by
        rw [Option.isNone_eq_false_iff, Option.isSome_iff_ne_none]
        exact hout
      simp [happen, hn]

end Sys2Proof.Machine

/-! PROOFS. O4, O5: what a release and a fall of RESET_N leave. -/

namespace Sys2Proof.Machine

/-! ## The release (R198) -/

theorem noticeReady_of_pass {s : State} (h : s.decoder.mode = .pass) : noticeReady s = none := by
  simp [noticeReady, h]

/-- With nothing presented and a rewrite wanted, a step's end in PASS presents the first burst of the rewrite. -/
theorem settle_wanted {s : State} (hm : s.decoder.mode = .pass) (hp : s.status.presented = none)
    (hr : s.status.rewrite = none) (hw : s.status.wanted = true) : settle s = beginRewrite s := by
  have hn : noticeSettle s = s := by simp [noticeSettle, noticeReady_of_pass hm]
  simp [settle, hn, statusSettle, hp, hr, hw]

theorem exec_resetNRelease {s : State} (m : BitVec 2) (h : s.pins.resetN = false) :
    exec (.resetNRelease m) s = .next (beginRewrite (releaseReset m s)) := by
  have hs : settle (releaseReset m s) = beginRewrite (releaseReset m s) := settle_wanted rfl rfl rfl rfl
  rw [← hs]
  simp [exec, execResetNRelease, h]

/-- The causes just after a release: the feeders whose line is low (R106, R166). -/
theorem causeAny_release (m : BitVec 2) (s : State) :
    causeAny (releaseReset m s) = s.pins.feederOk.any (fun high => !high) := by
  have hf : (s.pins.feederOk.map Feeder.reset).any (fun f => f.state != .active) = s.pins.feederOk.any (fun high => !high) := by
    rw [Vector.any_map]
    congr 1
    funext high
    cases high <;> rfl
  exact hf

/-- Settles O4: every block is blank, and the rewrite asked for begins. -/
theorem releaseOfResetSetsEveryBlock : Obligations.ReleaseOfResetSetsEveryBlock := by
  unfold Obligations.ReleaseOfResetSetsEveryBlock
  intro s m h
  refine ⟨_, exec_resetNRelease m h, rfl, rfl, rfl, rfl, rfl, rfl, rfl, rfl, rfl, fun k => ?_, rfl, rfl, fun b => ?_, rfl,
    fun f => ?_, fun i => ?_, fun f => ?_, fun k => ?_, rfl, rfl, rfl, fun i => ?_, rfl, rfl, rfl, rfl, rfl, rfl, ?_, rfl, rfl,
    rfl, rfl, rfl, causeAny_release m s⟩
  · exact Vector.getElem_replicate _
  · exact blank_bay s.pending { s.pins with resetN := true, memsize := m, attnN := true } s.mem s.freeUsed b
  · exact blank_feeder s.pending { s.pins with resetN := true, memsize := m, attnN := true } s.mem s.freeUsed f
  · exact Vector.getElem_replicate _
  · exact Vector.getElem_replicate _
  · exact Vector.getElem_replicate _
  · exact Vector.getElem_replicate _
  · refine ⟨_, rfl, rfl, ?_, rfl⟩
    have h0 : statusWord0 { releaseReset m s with
        status := { (releaseReset m s).status with wanted := false, generation := (releaseReset m s).status.generation + 1 } }
        = (0 + 1 : Half) ++ (0 : BitVec 2) ++ (0 : BitVec 2) ++ (0 : BitVec 4) ++ (0 : BitVec 8) := rfl
    exact congrArg some (h0.trans (by decide))

/-! ## The fall (R18) -/

/-- What a write of words leaves, byte by byte (R12). -/
theorem memoryWritten_writeWords {m : Memory} (hm : m.wf = true) (a : Nat) (ws : List (Mask × Word)) :
    MemoryWritten m (m.writeWords a ws) a ws := by
  intro x
  split
  · rename_i ha
    split
    · rename_i mask w hw
      obtain ⟨hi, hw⟩ := List.getElem?_eq_some_iff.1 hw
      rw [Memory.read_writeWords ws m a x (x / 4 - a) hm (by omega) hi, hw]
      rfl
    · rename_i hw
      exact Memory.read_writeWords_outside ws m a x hm (.inr (by rw [List.getElem?_eq_none_iff] at hw; omega))
  · rename_i ha
    exact Memory.read_writeWords_outside ws m a x hm (.inl (by omega))

/-- The words of a burst that a cut leaves written. -/
def cutChoice (bits : BitVec 8) (k : Nat) (ws : List (Mask × Word)) : List Bool :=
  (List.range' k ws.length).map bits.getLsbD

theorem cutBurst_eq (bits : BitVec 8) (k : Nat) (ws : List (Mask × Word)) :
    cutBurst bits k ws = ((cutChoice bits k ws).zip ws).map fun p => (if p.1 then p.2.1 else 0, p.2.2) := by
  induction ws generalizing k with
  | nil => rfl
  | cons w rest ih =>
    rw [cutBurst, ih]
    rfl

/-- A write under masks that set no lane leaves every byte. -/
theorem memoryWritten_none (m : Memory) (a : Nat) (ws : List (Mask × Word)) :
    MemoryWritten m m a (((ws.map fun _ => false).zip ws).map fun p => (if p.1 then p.2.1 else 0, p.2.2)) := by
  intro x
  split
  · split
    · rename_i mask w hw
      have hmask : mask = 0 := by
        obtain ⟨hi, he⟩ := List.getElem?_eq_some_iff.1 hw
        simp only [List.getElem_map, List.getElem_zip, Bool.false_eq_true, if_false, Prod.mk.injEq] at he
        exact he.1.symm
      simp [hmask]
    · rfl
  · rfl

theorem cutMemory_written_cases (s : State) (bits : BitVec 8) {q : Requester} {a : Nat} {ws : List (Mask × Word)}
    (hg : s.arbiter.granted = some q) (hb : s.burst q = some (a, ws)) (hm : s.mem.wf = true) :
    ∃ written : List Bool, written.length = ws.length
      ∧ MemoryWritten s.mem (s.cutMemory bits) a
          ((written.zip ws).map fun p => (if p.1 then p.2.1 else 0, p.2.2)) := by
  by_cases hc : q = .status ∧ s.resultPresented = true
  · have hmem : s.cutMemory bits = s.mem := by simp [State.cutMemory, hg, State.cuttable, hc]
    rw [hmem]
    exact ⟨ws.map fun _ => false, by simp, memoryWritten_none s.mem a ws⟩
  · have hmem : s.cutMemory bits = s.mem.writeWords a (cutBurst bits 0 ws) := by
      simp [State.cutMemory, hg, State.cuttable, hc, hb]
    rw [hmem]
    refine ⟨cutChoice bits 0 ws, by simp [cutChoice], ?_⟩
    rw [← cutBurst_eq]
    exact memoryWritten_writeWords hm a _

/-- Settles O5: the part's state is blank, and of the burst under way the words of the free value are written. -/
theorem resetFallCutsOneBurst : Obligations.ResetFallCutsOneBurst := by
  unfold Obligations.ResetFallCutsOneBurst
  intro s
  have hexec : exec .resetNFall s
      = .next (if s.pins.resetN then heldInReset s (Config.cutWords s.freeUsed) else s) := rfl
  refine ⟨fun h => by simp [hexec, h], fun h => ?_⟩
  rw [hexec, if_pos h]
  refine ⟨_, rfl, rfl, rfl, rfl, fun hnone => ?_, fun w hg hw => ?_, fun q a ws hg hb hm => ?_⟩
  · show s.cutMemory _ = s.mem
    unfold State.cutMemory
    split
    · rename_i q hq
      simp [State.cuttable, hnone q hq]
    · rfl
  · show s.cutMemory _ = s.mem
    simp [State.cutMemory, hg, State.cuttable, (resultPresented_iff s).2 ⟨w, hw⟩]
  · exact cutMemory_written_cases s _ hg hb hm

end Sys2Proof.Machine

/-! PROOFS. O6, O7: where the Window Decoder routes a request (R3), and the requests that pass to memory and are refused. -/

namespace Sys2Proof.Machine

/-! ## The tests of R3 in the words of the statements -/

theorem badShape_iff (s : State) (r : Request) : badShape s.decoder r = false ↔ Shaped s r := by
  simp only [badShape, Bool.or_eq_false_iff, decide_eq_false_iff_not, Nat.not_lt]
  rfl

theorem setupRole_ne_plain (k : Nat) : setupRole k ≠ .plain ↔ RoleOffset k := by
  unfold setupRole RoleOffset
  split_ifs <;> simp <;> omega

theorem rolesTouched_any_iff (s : State) (r : Request) :
    (decide (s.decoder.setupBase ≤ r.addr.toNat)
        && (rolesTouched (r.addr.toNat - s.decoder.setupBase) r.access.length).any (fun x => x != .plain)) = true
      ↔ TouchesRole s r := by
  have hbase : s.decoder.setupBase = setupFirst s := rfl
  simp only [hbase, rolesTouched, Bool.and_eq_true, decide_eq_true_eq, List.any_map, List.any_eq_true, List.mem_range,
    Function.comp_apply, bne_iff_ne, setupRole_ne_plain, TouchesRole]
  constructor
  · rintro ⟨hfirst, k, hk, hrole⟩
    exact ⟨k, hk, hfirst, by rwa [Nat.sub_add_comm hfirst]⟩
  · rintro ⟨k, hk, hfirst, hrole⟩
    exact ⟨hfirst, k, hk, by rwa [← Nat.sub_add_comm hfirst]⟩

/-- The words of a served bay's record lie in the BAYS window (R5). -/
theorem record_bounds {base limit k a : Nat} (hon : base ≤ limit) (hserved : k < (limit - base + 1) * 64)
    (hlow : base * 1024 + k * 16 ≤ a) (hhigh : a < base * 1024 + k * 16 + 16) :
    base * 1024 ≤ a ∧ a < (limit + 1) * 1024 :=
  ⟨(Nat.le_add_right _ _).trans hlow, by omega⟩

theorem bayAt_iff (w : Windows) (b : BayNo) (a : Nat) :
    w.bayAt a = some b ↔
      w.bays.base ≤ w.bays.limit ∧ b.val < (w.bays.limit - w.bays.base + 1) * 64
        ∧ w.bays.base * 1024 + b.val * 16 ≤ a ∧ a < w.bays.base * 1024 + b.val * 16 + 16 := by
  have hb := b.isLt
  unfold Windows.bayAt
  by_cases hc : w.bays.covers a = true
  · rw [if_pos hc]
    obtain ⟨hon, hlow, hhigh⟩ := (Window.covers_iff _ _).1 hc
    have hbase : w.bays.baseWord = w.bays.base * 1024 := rfl
    rw [hbase] at *
    by_cases hlt : (a - w.bays.base * 1024) / 16 < 160
    · rw [dif_pos hlt, Option.some.injEq, Fin.ext_iff]
      exact ⟨fun h => by simp only at h; omega, fun h => by simp only; omega⟩
    · rw [dif_neg hlt]
      exact ⟨fun h => (by cases h), fun h => by omega⟩
  · rw [if_neg hc]
    refine ⟨fun h => (by cases h), fun ⟨hon, hserved, hlow, hhigh⟩ => absurd ((Window.covers_iff _ _).2 ?_) hc⟩
    exact ⟨hon, record_bounds hon hserved hlow hhigh⟩

theorem inRecord_iff (s : State) (b : BayNo) (a : Nat) :
    InRecord s b a ↔ s.decoder.mode ≠ .pass ∧ s.decoder.windows.bayAt a = some b := by
  rw [bayAt_iff]
  rfl

theorem isBayRequest_eq_false (s : State) (r : Request) :
    isBayRequest s.decoder r = false ↔ ∀ b, ¬ InRecord s b r.addr.toNat := by
  simp only [inRecord_iff, isBayRequest, Bool.and_eq_false_iff, bne_eq_false_iff_eq, Option.isSome_eq_false_iff,
    Option.isNone_iff_eq_none, not_and]
  constructor
  · rintro (h | h) b hm
    · exact absurd h hm
    · simp [h]
  · intro h
    by_cases hm : s.decoder.mode = .pass
    · exact .inl hm
    · exact .inr (Option.eq_none_iff_forall_ne_some.2 fun b => h b hm)

theorem InRecord.inWindow {s : State} {b : BayNo} {a : Nat} (h : InRecord s b a) : InWindow s.decoder.windows.bays a := by
  obtain ⟨-, hon, hserved, hlow, hhigh⟩ := h
  exact ⟨hon, record_bounds hon hserved hlow hhigh⟩

/-- No word lies in two windows (R7). -/
theorem Decoder.Valid.not_inWindow {d : Decoder} (hd : d.Valid) {n k : WindowName} (hk : k ≠ n) {a : Nat}
    (h : InWindow (d.windows.get n) a) : ¬ InWindow (d.windows.get k) a := by
  rintro ⟨-, hlow', hhigh'⟩
  obtain ⟨hon, hlow, hhigh⟩ := h
  obtain ⟨-, -, -, hdisj⟩ := hd.fits n (decide_eq_true hon)
  exact hdisj k hk (a / 1024) ⟨by omega, by omega⟩ ⟨by omega, by omega⟩

/-! ## The routes, in the order of R3 -/

theorem route_of_badShape {s : State} {r : Request} (h : ¬ Shaped s r) : route s.decoder r = .refuse := by
  rw [← badShape_iff, Bool.not_eq_false] at h
  simp [route, h]

/-- Step 2: the lock flag outside the records. -/
theorem route_of_locked {s : State} {r : Request} (hl : r.lock = true) (h : ∀ b, ¬ InRecord s b r.addr.toNat) :
    route s.decoder r = .refuse := by
  rw [← isBayRequest_eq_false] at h
  simp [route, hl, h]

/-- The request passes step 2. -/
def LockFits (s : State) (r : Request) : Prop := r.lock = false ∨ ∃ b, InRecord s b r.addr.toNat

theorem lockFits_iff (s : State) (r : Request) : (r.lock && !isBayRequest s.decoder r) = false ↔ LockFits s r := by
  unfold LockFits
  by_cases h : ∃ b, InRecord s b r.addr.toNat
  · have hb : isBayRequest s.decoder r = true := by
      rw [← Bool.not_eq_false, isBayRequest_eq_false]
      exact fun hn => hn _ h.choose_spec
    simp [h, hb]
  · have hb : isBayRequest s.decoder r = false := (isBayRequest_eq_false s r).2 fun b hb => h ⟨b, hb⟩
    simp [h, hb]

/-- Step 3: a request that touches a role word. -/
theorem route_of_role {s : State} {r : Request} (hs : Shaped s r) (hl : LockFits s r) (ht : TouchesRole s r) :
    route s.decoder r =
      match r.access with
      | .read _ => .plain
      | .write ws => routeSetupWrite (r.addr.toNat - s.decoder.setupBase) ws := by
  rw [← badShape_iff] at hs
  rw [← lockFits_iff] at hl
  rw [← rolesTouched_any_iff] at ht
  simp only [route, hs, hl, ht, Bool.false_eq_true, if_false, if_true] <;> rfl

/-- Past step 3, in PASS. -/
theorem route_of_pass {s : State} {r : Request} (hs : Shaped s r) (hl : LockFits s r) (ht : ¬ TouchesRole s r)
    (hm : s.decoder.mode = .pass) : route s.decoder r = .plain := by
  rw [← badShape_iff] at hs
  rw [← lockFits_iff] at hl
  rw [← rolesTouched_any_iff] at ht
  simp only [route, hs, hl, ht, hm, Bool.false_eq_true, if_false, if_true]

/-- Step 4: past step 3, in RUN and HALTED. -/
theorem route_of_window {s : State} {r : Request} (hs : Shaped s r) (hl : LockFits s r) (ht : ¬ TouchesRole s r)
    (hm : s.decoder.mode ≠ .pass) :
    route s.decoder r = (routeWindow s.decoder.mode s.decoder.windows r.addr.toNat r.access).getD .plain := by
  rw [← badShape_iff] at hs
  rw [← lockFits_iff] at hl
  rw [← rolesTouched_any_iff] at ht
  simp only [route, hs, hl, ht, hm, Bool.false_eq_true, if_false]

/-- A window holds no role word. -/
theorem not_touchesRole {s : State} {r : Request} (hv : WindowsValid s) {n : WindowName}
    (h : InWindow (s.decoder.windows.get n) r.addr.toNat) : ¬ TouchesRole s r := by
  rintro ⟨-, -, hbase, -⟩
  have hbelow : r.addr.toNat < s.decoder.setupBase := ((windowsValid_iff s).1 hv).lt_setupBase n h
  exact absurd hbelow (Nat.not_lt.2 hbase)

/-! ## The windows, in the order of step 4 -/

theorem covers_eq_false {w : Window} {a : Nat} (h : ¬ InWindow w a) : w.covers a = false := by
  rw [← Bool.not_eq_true, Window.covers_iff]
  exact h

theorem routeWindow_inbox {w : Windows} {a : Nat} (h : InWindow w.inbox a) (m : Mode) (acc : Access) :
    routeWindow m w a acc =
      match acc with
      | .read _ => some .refuse
      | .write ws => if m = .run then some (routeInboxWrite w.inbox.baseWord a ws) else some .refuse := by
  simp only [routeWindow, (Window.covers_iff _ _).2 h, if_true] <;> rfl

theorem routeWindow_bays {w : Windows} {a : Nat} (hi : ¬ InWindow w.inbox a) (h : InWindow w.bays a) (m : Mode)
    (acc : Access) :
    routeWindow m w a acc =
      match w.bayAt a, acc with
      | none, _ => some .refuse
      | some b, .read _ => some (.bayRead b)
      | some b, .write ws =>
        if (a - w.bays.baseWord) % 16 < 12 then some .refuse
        else some (.settings b ((a - w.bays.baseWord) % 16 - 12) ws) := by
  simp only [routeWindow, (Window.covers_iff _ _).2 h, covers_eq_false hi, Bool.false_eq_true, if_false, if_true] <;> rfl

theorem routeWindow_ring {w : Windows} {a : Nat} (hi : ¬ InWindow w.inbox a) (hb : ¬ InWindow w.bays a)
    (h : InWindow w.ring a) (m : Mode) (acc : Access) :
    routeWindow m w a acc = match acc with | .read _ => some .plain | .write _ => some .refuse := by
  simp only [routeWindow, (Window.covers_iff _ _).2 h, covers_eq_false hi, covers_eq_false hb, Bool.false_eq_true, if_false,
    if_true] <;> rfl

theorem routeWindow_outside {w : Windows} {a : Nat} (hi : ¬ InWindow w.inbox a) (hb : ¬ InWindow w.bays a)
    (h : ¬ InWindow w.ring a) (m : Mode) (acc : Access) : routeWindow m w a acc = none := by
  simp [routeWindow, covers_eq_false hi, covers_eq_false hb, covers_eq_false h]

/-! ## How a request is answered -/

theorem releasedBy_eq_false {s : State} {r : Request} (h : r.lock = true ∨ NotHolder s r.initiator) :
    s.releasedBy r = false := by
  rcases h with h | h
  · simp [State.releasedBy, h]
  · exact notHolder_releasedBy h

/-- A request that the part takes and that releases no lock is answered by its route. -/
theorem exec_judged {s : State} {c : Instr} {r : Request} (hr : requestOf s c = some r) (hc : c.wellFormed = true)
    (ha : Accepts s) (hl : r.lock = true ∨ NotHolder s r.initiator) :
    exec c s = .next (settle (answer r s.clearAnswer (route s.decoder r))) := by
  rw [exec_of_request hr, if_pos hc, requestStep_accepts ha, present_of_not_holder (releasedBy_eq_false hl)]

theorem answer_plain (r : Request) (s : State) : answer r s.clearAnswer .plain = outstanding s r .plain := rfl

theorem answer_refuse (r : Request) (s : State) : answer r s.clearAnswer .refuse = completed s r.initiator .refuse := rfl

/-- Settles O6: each kind is routed as a plain request. -/
theorem plainRequestsPassToMemory : Obligations.PlainRequestsPassToMemory := by
  unfold Obligations.PlainRequestsPassToMemory
  intro r s hw ha hn hv hs hl hkind
  have hfits : LockFits s r := .inl hl
  have hplain : route s.decoder r = .plain := by
    rcases hkind with ⟨ht, n, hread⟩ | ⟨ht, hm⟩ | ⟨ht, hm, hi, hb, hring⟩
    · rw [route_of_role hs hfits ht, hread]
    · exact route_of_pass hs hfits ht hm
    · rw [route_of_window hs hfits ht hm]
      by_cases h : InWindow s.decoder.windows.ring r.addr.toNat
      · obtain ⟨n, hread⟩ := hring h
        rw [routeWindow_ring hi hb h, hread]
        rfl
      · rw [routeWindow_outside hi hb h]
        rfl
  rw [exec_judged (c := .plainRequest r) (r := r) rfl hw ha (.inr hn), hplain, answer_plain]

/-! ## Refusals -/

/-- An INBOX write that has not the frame shape of R20. -/
theorem routeInboxWrite_refuse {base a : Nat} {ws : List (Mask × Word)}
    (h : ws.length ≠ 4 ∨ a % 4 ≠ 0 ∨ (∃ w ∈ ws, w.1 ≠ 15) ∨ a = base * 1024) :
    routeInboxWrite (base * 1024) a ws = .refuse := by
  unfold routeInboxWrite
  split
  · rename_i m0 w0 m1 w1 m2 w2 m3 w3
    refine if_neg fun ⟨haligned, h0, h1, h2, h3, hslot⟩ => ?_
    rcases h with h | h | ⟨w, hmem, hmask⟩ | h
    · exact h rfl
    · exact h haligned
    · simp only [List.mem_cons, List.not_mem_nil, or_false] at hmem
      rcases hmem with rfl | rfl | rfl | rfl <;> exact hmask (by assumption)
    · exact hslot (by omega)
  · rfl

/-- A write of one word to the result word or the status block. -/
theorem routeSetupWrite_readOnly {k : Nat} (hk : k = 4 ∨ 16 ≤ k ∧ k ≤ 35) (w : Mask × Word) :
    routeSetupWrite k [w] = .refuse := by
  have hrole : setupRole k = .result ∨ setupRole k = .status := by
    rcases hk with rfl | hk
    · exact .inl (by decide)
    · right
      rw [setupRole, if_neg (by omega), if_neg (by omega), if_neg (by omega), if_neg (by omega), if_neg (by omega),
        if_neg (by omega), if_pos hk]
  have hany : (rolesTouched k [w].length).any (fun r => r == .result || r == .status) = true := by
    rcases hrole with h | h <;> simp [rolesTouched, h]
  simp only [routeSetupWrite, hany, if_true]

/-- A setup write that is not the single full-lane write of a word that takes one (R8). -/
theorem routeSetupWrite_refuse {k : Nat} {ws : List (Mask × Word)}
    (htouch : ∃ j, j < ws.length ∧ RoleOffset (k + j))
    (h : ws.length ≠ 1 ∨ (∃ w ∈ ws, w.1 ≠ 15) ∨ k = 4 ∨ 16 ≤ k) : routeSetupWrite k ws = .refuse := by
  match ws, htouch, h with
  | [], ⟨j, hj, _⟩, _ => cases hj
  | _ :: _ :: _, _, _ => simp [routeSetupWrite]
  | [(mask, v)], ⟨j, hj, hrole⟩, h =>
    have hj : j = 0 := by simpa using hj
    subst hj
    rcases h with h | ⟨w, hmem, hmask⟩ | h | h
    · exact absurd rfl h
    · rw [List.mem_singleton] at hmem
      subst hmem
      have hm : mask ≠ fullMask := hmask
      cases hr : setupRole k <;> simp [routeSetupWrite, rolesTouched, hr, hm]
    · exact routeSetupWrite_readOnly (.inl h) _
    · refine routeSetupWrite_readOnly (.inr ⟨h, ?_⟩) _
      unfold RoleOffset at hrole
      omega

/-- An INBOX request that is refused: HALTED, a read, or a write that has not the frame shape (R13, R20). -/
theorem route_inbox_refuse {s : State} {r : Request} (hv : WindowsValid s) (hs : Shaped s r) (hl : r.lock = false)
    (hm : s.decoder.mode ≠ .pass) (hin : InWindow s.decoder.windows.inbox r.addr.toNat)
    (h : s.decoder.mode = .halted ∨ (∃ n, r.access = .read n)
      ∨ ∃ ws, r.access = .write ws
          ∧ (ws.length ≠ 4 ∨ r.addr.toNat % 4 ≠ 0 ∨ (∃ w ∈ ws, w.1 ≠ 15)
            ∨ r.addr.toNat = s.decoder.windows.inbox.base * 1024)) : route s.decoder r = .refuse := by
  have ht : ¬ TouchesRole s r := not_touchesRole hv (n := .inbox) hin
  rw [route_of_window hs (.inl hl) ht hm, routeWindow_inbox hin]
  cases hacc : r.access with
  | read n => rfl
  | write ws =>
    by_cases hrun : s.decoder.mode = .run
    · have hshape : ws.length ≠ 4 ∨ r.addr.toNat % 4 ≠ 0 ∨ (∃ w ∈ ws, w.1 ≠ 15)
          ∨ r.addr.toNat = s.decoder.windows.inbox.base * 1024 := by
        rcases h with h | ⟨n, h⟩ | ⟨ws', h, hshape⟩
        · rw [hrun] at h
          cases h
        · rw [hacc] at h
          cases h
        · rw [hacc, Access.write.injEq] at h
          rwa [h]
      simp only [hrun, if_true, Option.getD_some]
      exact routeInboxWrite_refuse hshape
    · simp [hrun]

/-- A BAYS request outside the records, or a write to a record's first twelve words (R13, R21). -/
theorem route_bays_refuse {s : State} {r : Request} (hv : WindowsValid s) (hs : Shaped s r) (hm : s.decoder.mode ≠ .pass)
    (hin : InWindow s.decoder.windows.bays r.addr.toNat)
    (h : (∀ b, ¬ InRecord s b r.addr.toNat) ∨ (r.addr.toNat % 16 < 12 ∧ ∃ ws, r.access = .write ws)) :
    route s.decoder r = .refuse := by
  by_cases hl : LockFits s r
  · have hd := (windowsValid_iff s).1 hv
    have hi : ¬ InWindow s.decoder.windows.inbox r.addr.toNat := hd.not_inWindow (n := .bays) (k := .inbox) nofun hin
    rw [route_of_window hs hl (not_touchesRole hv (n := .bays) hin) hm, routeWindow_bays hi hin]
    cases hb : s.decoder.windows.bayAt r.addr.toNat with
    | none => rfl
    | some b =>
      rcases h with h | ⟨hlow, ws, hw⟩
      · exact absurd ((inRecord_iff s b _).2 ⟨hm, hb⟩) (h b)
      · have hword : (r.addr.toNat - s.decoder.windows.bays.baseWord) % 16 < 12 := by
          have hbase := hin.2.1
          unfold Window.baseWord
          omega
        simp [hw, hword]
  · unfold LockFits at hl
    push Not at hl
    exact route_of_locked (by simpa using hl.1) hl.2

theorem route_ring_refuse {s : State} {r : Request} (hv : WindowsValid s) (hs : Shaped s r) (hl : r.lock = false)
    (hm : s.decoder.mode ≠ .pass) (hin : InWindow s.decoder.windows.ring r.addr.toNat) {ws : List (Mask × Word)}
    (hw : r.access = .write ws) : route s.decoder r = .refuse := by
  have hd := (windowsValid_iff s).1 hv
  have hi : ¬ InWindow s.decoder.windows.inbox r.addr.toNat := hd.not_inWindow (n := .ring) (k := .inbox) nofun hin
  have hb : ¬ InWindow s.decoder.windows.bays r.addr.toNat := hd.not_inWindow (n := .ring) (k := .bays) nofun hin
  rw [route_of_window hs (.inl hl) (not_touchesRole hv (n := .ring) hin) hm, routeWindow_ring hi hb hin, hw]
  rfl

/-- Settles O7: each kind is routed to a refusal. -/
theorem refusedRequestsAreCounted : Obligations.RefusedRequestsAreCounted := by
  unfold Obligations.RefusedRequestsAreCounted
  refine ⟨fun r s hw ha hl hv hkind => ?_, fun r ws s hw ha hn hs hl hacc ht hkind => ?_⟩
  · have hrefuse : route s.decoder r = .refuse := by
      rcases hkind with h | ⟨-, hlock, h⟩ | ⟨hs, hl, hm, hin, h⟩ | ⟨hs, hm, hin, h⟩ | ⟨hs, hl, hm, hin, ws, h⟩
      · exact route_of_badShape h
      · exact route_of_locked hlock h
      · exact route_inbox_refuse hv hs hl hm hin h
      · exact route_bays_refuse hv hs hm hin h
      · exact route_ring_refuse hv hs hl hm hin h
    rw [exec_judged (c := .plainRequest r) (r := r) rfl hw ha hl, hrefuse, answer_refuse]
  · have hbase : s.decoder.setupBase = setupFirst s := rfl
    have ⟨j, hj, hfirst, hrole⟩ := ht
    rw [hacc] at hj
    have htouch : ∃ j, j < ws.length ∧ RoleOffset (r.addr.toNat - s.decoder.setupBase + j) :=
      ⟨j, hj, by rwa [hbase, ← Nat.sub_add_comm hfirst]⟩
    have hoffset : ws.length ≠ 1 ∨ (∃ w ∈ ws, w.1 ≠ 15) ∨ r.addr.toNat - s.decoder.setupBase = 4
        ∨ 16 ≤ r.addr.toNat - s.decoder.setupBase := by
      rw [hbase]
      rcases hkind with h | h | h | h
      · exact .inl h
      · exact .inr (.inl h)
      · exact .inr (.inr (.inl (by omega)))
      · exact .inr (.inr (.inr (by omega)))
    rw [exec_judged (c := .plainRequest r) (r := r) rfl hw ha (.inr hn), route_of_role hs (.inl hl) ht, hacc, ← answer_refuse]
    simp only [routeSetupWrite_refuse htouch hoffset]

end Sys2Proof.Machine

/-! PROOFS. O9, O10, O11: what the Record Access Unit answers to bay-record reads and settings writes. -/

namespace Sys2Proof.Machine

/-! ## Routes into a record (R3, R21) -/

theorem shaped_of_inRecord {s : State} {b : BayNo} {r : Request} (hv : WindowsValid s) (h : InRecord s b r.addr.toNat)
    (hblock : r.addr.toNat % 8 + r.access.length ≤ 8) : Shaped s r := by
  have hbelow : r.addr.toNat < s.decoder.setupBase := ((windowsValid_iff s).1 hv).lt_setupBase .bays h.inWindow
  exact (badShape_iff s r).1 (badShape_of_lt_setupBase hbelow hblock)

/-- A request that begins in a record and crosses no aligned 8-word block. -/
theorem route_record {s : State} {b : BayNo} {r : Request} (hv : WindowsValid s) (h : InRecord s b r.addr.toNat)
    (hblock : r.addr.toNat % 8 + r.access.length ≤ 8) :
    route s.decoder r =
      match r.access with
      | .read _ => .bayRead b
      | .write ws => if r.addr.toNat % 16 < 12 then .refuse else .settings b (r.addr.toNat % 16 - 12) ws := by
  have hin := h.inWindow
  have hd := (windowsValid_iff s).1 hv
  have hi : ¬ InWindow s.decoder.windows.inbox r.addr.toNat := hd.not_inWindow (n := .bays) (k := .inbox) nofun hin
  have hword : (r.addr.toNat - s.decoder.windows.bays.baseWord) % 16 = r.addr.toNat % 16 := by
    have hbase : s.decoder.windows.bays.base * 1024 ≤ r.addr.toNat := hin.2.1
    unfold Window.baseWord
    omega
  have ⟨hm, hb⟩ := (inRecord_iff s b _).1 h
  rw [route_of_window (shaped_of_inRecord hv h hblock) (.inr ⟨b, h⟩) (not_touchesRole hv (n := .bays) hin) hm,
    routeWindow_bays hi hin, hb, hword]
  cases r.access with
  | read n => rfl
  | write ws => simp only; split <;> rfl

/-! ## The lock as a request meets it (R174, R177) -/

theorem lockedAgainst_iff (s : State) (i : Initiator) (b : BayNo) :
    s.lockedAgainst i b = true ↔ ∃ l, s.access.lock = some l ∧ l.bay = b ∧ l.holder ≠ i := by
  simp [State.lockedAgainst, Option.any_eq_true]

theorem lockedAgainst_eq_false (s : State) (i : Initiator) (b : BayNo) :
    s.lockedAgainst i b = false ↔ ∀ l, s.access.lock = some l → l.bay = b → l.holder = i := by
  rw [← Bool.not_eq_true, lockedAgainst_iff]
  push Not
  rfl

/-! ## Delayed entries (R170, R172) -/

theorem entryFor_eq_none (s : State) (k : ReadKey) : s.entryFor k = none ↔ ∀ e ∈ s.access.table, e.key ≠ k := by
  simp [State.entryFor, List.find?_eq_none]

theorem addEntry_eq (s : State) (k : ReadKey) :
    s.addEntry k =
      { s with
        access :=
          { s.access with
            table :=
              if (∀ e ∈ s.access.table, e.key ≠ k) ∧ s.access.table.length < 4 then s.access.table ++ [⟨k, .queued⟩]
              else s.access.table } } := by
  have hiff : ((s.entryFor k).isNone && decide (s.access.table.length < 4)) = true
      ↔ (∀ e ∈ s.access.table, e.key ≠ k) ∧ s.access.table.length < 4 := by
    rw [Bool.and_eq_true, Option.isNone_iff_eq_none, entryFor_eq_none, decide_eq_true_eq]
  unfold State.addEntry
  by_cases h : (∀ e ∈ s.access.table, e.key ≠ k) ∧ s.access.table.length < 4
  · rw [if_pos (hiff.2 h), if_pos h]
  · rw [if_neg (mt hiff.1 h), if_neg h]

/-! ## The answers to reads -/

/-- A bay-record read is answered by the Record Access Unit. -/
theorem exec_bayRead {s : State} {c : Instr} {r : Request} {b : BayNo} {n : Nat} (hr : requestOf s c = some r)
    (hc : c.wellFormed = true) (ha : Accepts s) (hl : r.lock = true ∨ NotHolder s r.initiator) (hv : WindowsValid s)
    (hin : InRecord s b r.addr.toNat) (hread : r.access = .read n) (hblock : r.addr.toNat % 8 + n ≤ 8) :
    exec c s =
      .next (settle (if r.lock then answerLockedBayRead r b s.clearAnswer else answerBayRead r b s.clearAnswer)) := by
  have hlen : r.access.length = n := by
    rw [hread]
    rfl
  rw [exec_judged hr hc ha hl, route_record hv hin (by rwa [hlen]), hread]
  rfl

theorem answerBayRead_of_entry {r : Request} {b : BayNo} {s : State} (hlock : s.lockedAgainst r.initiator b = false)
    (hf : (s.bay b).inFlight = false) :
    answerBayRead r b s =
      match s.entryFor (readKey r) with
      | some ⟨_, .ready data _⟩ => (s.removeEntry (readKey r)).complete r.initiator (.done data)
      | some ⟨_, .queued⟩ => s.complete r.initiator .retry
      | none => s.pass r (.bayRead b false) := by
  simp only [answerBayRead, hlock, hf, Bool.false_eq_true, if_false] <;> rfl

theorem readWellFormed {n : Nat} (h1 : 1 ≤ n) {k : Nat} (h8 : k % 8 + n ≤ 8) :
    (decide (1 ≤ n) && decide (n ≤ 8)) = true := by
  rw [Bool.and_eq_true, decide_eq_true_eq, decide_eq_true_eq]
  exact ⟨h1, by omega⟩

/-- Settles O9: the Record Access Unit's two answers, row by row. -/
theorem bayRecordReadsAreAnswered : Obligations.BayRecordReadsAreAnswered := by
  unfold Obligations.BayRecordReadsAreAnswered
  refine ⟨fun i a n b s ha hn hv hin h1 h8 => ?_, fun i a n b s ha hv hin h1 h8 => ?_⟩
  · rw [exec_bayRead (c := .bayRecordRead i a n) (r := ⟨i, a, false, .read n⟩) rfl (readWellFormed h1 h8) ha (.inr hn) hv hin rfl h8]
    simp only [Bool.false_eq_true, if_false]
    refine ⟨fun ⟨l, hl, hbay⟩ => ?_, fun hother hf => ?_, fun hother hf => ?_⟩
    · have hlock : s.clearAnswer.lockedAgainst i b = true := (lockedAgainst_iff _ _ _).2 ⟨l, hl, hbay, hn l hl⟩
      simp only [answerBayRead, hlock, if_true]
      rfl
    · have hlock : s.clearAnswer.lockedAgainst i b = false :=
        (lockedAgainst_eq_false _ _ _).2 fun l hl hbay => absurd hbay (hother l hl)
      have hf' : (s.clearAnswer.bay b).inFlight = true := hf
      simp only [answerBayRead, hlock, hf', Bool.false_eq_true, if_false, if_true, addEntry_eq]
      rfl
    · have hlock : s.clearAnswer.lockedAgainst i b = false :=
        (lockedAgainst_eq_false _ _ _).2 fun l hl hbay => absurd hbay (hother l hl)
      rw [answerBayRead_of_entry (r := ⟨i, a, false, .read n⟩) (s := s.clearAnswer) hlock hf]
      refine ⟨fun data left he => ?_, fun he => ?_, fun he => ?_⟩
      · have he' : s.clearAnswer.entryFor (readKey ⟨i, a, false, .read n⟩) = some ⟨⟨i, a, n⟩, .ready data left⟩ := he
        rw [he']
        rfl
      · have he' : s.clearAnswer.entryFor (readKey ⟨i, a, false, .read n⟩) = some ⟨⟨i, a, n⟩, .queued⟩ := he
        rw [he']
        rfl
      · have he' : s.clearAnswer.entryFor (readKey ⟨i, a, false, .read n⟩) = none := (entryFor_eq_none _ _).2 he
        rw [he']
        rfl
  · rw [exec_bayRead (c := .lockedBayRecordRead i a n) (r := ⟨i, a, true, .read n⟩) rfl (readWellFormed h1 h8) ha (.inl rfl) hv hin rfl h8]
    simp only [if_true]
    have hlock : s.clearAnswer.access.lock = s.access.lock := rfl
    have hf : (s.clearAnswer.bay b).inFlight = (s.bay b).inFlight := rfl
    refine ⟨fun hnone h => ?_, fun hnone h => ?_, fun l hl => ⟨fun hi hb => ?_, fun hi hb => ?_, fun hi => ?_⟩⟩
    · simp only [answerLockedBayRead, hlock, hnone, hf, h, if_true]
      rfl
    · simp only [answerLockedBayRead, hlock, hnone, hf, h, Bool.false_eq_true, if_false]
      rfl
    · simp only [answerLockedBayRead, hlock, hl, hi, hb, if_true]
      rfl
    · simp only [answerLockedBayRead, hlock, hl, hi, hb, if_true, if_false]
      rfl
    · simp only [answerLockedBayRead, hlock, hl, hi, if_false]
      rfl

/-! ## Settings (R59, R60) -/

theorem laneOf_mergeLanes (old new : Word) (mask : Mask) {k : Nat} (hk : k < 4) :
    laneOf (mergeLanes old mask new) k = if mask.getLsbD k then laneOf new k else laneOf old k := by
  unfold mergeLanes
  rw [laneOf_append _ _ _ _ _ hk]
  interval_cases k <;> rfl

/-- The word a write leaves at one place of a list of words. -/
def mergeWord (w : Word) : Option (Mask × Word) → Word
  | some (mask, x) => mergeLanes w mask x
  | none => w

theorem mergeWords_getElem? (old : List Word) (k : Nat) (new : List (Mask × Word)) (n : Nat) :
    (mergeWords old k new)[n]? = old[n]?.map fun w => mergeWord w (if k ≤ n then new[n - k]? else none) := by
  induction old generalizing k new n with
  | nil => simp [mergeWords]
  | cons w old ih =>
    match k, new, n with
    | _, [], _ => simp [mergeWords, mergeWord]
    | 0, _ :: _, 0 => simp [mergeWords, mergeWord]
    | 0, _ :: _, n + 1 => simp [mergeWords, ih]
    | k + 1, _ :: _, 0 => simp [mergeWords, mergeWord]
    | k + 1, _ :: _, n + 1 => simp [mergeWords, ih]

theorem mergeWords_length (old : List Word) (k : Nat) (new : List (Mask × Word)) :
    (mergeWords old k new).length = old.length := by
  induction old generalizing k new with
  | nil => simp [mergeWords]
  | cons w old ih =>
    match k, new with
    | _, [] => simp [mergeWords]
    | 0, _ :: _ => simp [mergeWords, ih]
    | k + 1, _ :: _ => simp [mergeWords, ih]

theorem highHalf_append_lowHalf (w : Word) : highHalf w ++ lowHalf w = w :=
  (BitVec.extractLsb'_append_extractLsb'_eq_extractLsb' rfl).trans BitVec.extractLsb'_eq_self

theorem highHalf_append_bytes (w : Word) : highHalf w ++ w.extractLsb' 8 8 ++ w.extractLsb' 0 8 = w := by
  have hhigh : highHalf w ++ w.extractLsb' 8 8 = w.extractLsb' 8 24 :=
    BitVec.extractLsb'_append_extractLsb'_eq_extractLsb' rfl
  rw [hhigh]
  exact (BitVec.extractLsb'_append_extractLsb'_eq_extractLsb' rfl).trans BitVec.extractLsb'_eq_self

theorem Settings.words_ofWords (a b c d : Word) : (Settings.ofWords a b c d).words = [a, b, c, d] := by
  simp only [Settings.words, Settings.ofWords, highHalf_append_lowHalf, highHalf_append_bytes]

theorem Settings.words_merge (x : Settings) (k : Nat) (ws : List (Mask × Word)) :
    (x.merge k ws).words = mergeWords x.words k ws := by
  have hlen : (mergeWords x.words k ws).length = 4 := mergeWords_length _ _ _
  unfold Settings.merge
  match h : mergeWords x.words k ws, hlen with
  | [a, b, c, d], _ => exact words_ofWords a b c d

theorem Settings.inRange_iff (x : Settings) :
    x.inRange = true ↔
      (20 ≤ x.fuelLow.toNat ∧ x.fuelLow.toNat ≤ 900) ∧ x.fuelCritical.toNat + 1 ≤ x.fuelLow.toNat
        ∧ (30 ≤ x.doorLimit.toNat ∧ x.doorLimit.toNat ≤ 65535)
        ∧ (x.doorLimit.toNat ≤ x.loadingDoorLimit.toNat ∧ x.loadingDoorLimit.toNat ≤ 65535)
        ∧ (60 ≤ x.defrostInterval.toNat ∧ x.defrostInterval.toNat ≤ 1440)
        ∧ (0 ≤ x.iceMargin.toNat ∧ x.iceMargin.toNat ≤ 255)
        ∧ (-40 ≤ x.coilIcePoint.toInt ∧ x.coilIcePoint.toInt ≤ 10)
        ∧ (10 ≤ x.fuelDrop.toNat ∧ x.fuelDrop.toNat ≤ 500)
        ∧ (5 ≤ x.fuelHysteresis.toNat ∧ x.fuelHysteresis.toNat ≤ 200) := by
  have h1 := x.doorLimit.isLt
  have h2 := x.loadingDoorLimit.isLt
  have h3 := x.iceMargin.isLt
  simp only [Settings.inRange, Bool.and_eq_true, decide_eq_true_eq]
  omega

/-- Settles O10: the words are those of R59, and a merge is made word by word (`mergeWords_getElem?`) and lane by lane. -/
theorem settingsAreMergedAndJudged : Obligations.SettingsAreMergedAndJudged := by
  unfold Obligations.SettingsAreMergedAndJudged
  refine ⟨fun x => ⟨rfl, x.inRange_iff⟩, fun x k ws hfit n lane old hn hlane hold => ?_⟩
  rw [Settings.words_merge, mergeWords_getElem?, hold]
  refine ⟨_, rfl, fun mask v hk hw hset => ?_, fun hkept => ?_⟩
  · rw [if_pos hk, hw]
    exact (laneOf_mergeLanes old v mask hlane).trans (if_pos hset)
  · by_cases hk : k ≤ n
    · rw [if_pos hk]
      rcases hkept with h | h | ⟨mask, v, hw, hclear⟩
      · omega
      · rw [List.getElem?_eq_none (by omega)]
        rfl
      · rw [hw]
        refine (laneOf_mergeLanes old v mask hlane).trans (if_neg ?_)
        rw [hclear]
        decide
    · rw [if_neg hk]
      rfl

/-! ## The answer to a settings write (R60, R177, R180) -/

theorem exec_settingsWrite {i : Initiator} {a : WordAddr} {lock : Bool} {ws : List (Mask × Word)} {b : BayNo} {k : Nat}
    {s : State} (ha : Accepts s) (hl : lock = true ∨ NotHolder s i) (hv : WindowsValid s) (hin : InRecord s b a.toNat)
    (hk : a.toNat % 16 = 12 + k) (h1 : 1 ≤ ws.length) (h4 : k + ws.length ≤ 4) :
    exec (.settingsWrite i a lock ws) s =
      .next (settle (answerSettings ⟨i, a, lock, .write ws⟩ b k ws s.clearAnswer)) := by
  have hwell : (Instr.settingsWrite i a lock ws).wellFormed = true := readWellFormed (k := 0) h1 (by omega)
  have hblock : a.toNat % 8 + ws.length ≤ 8 := by omega
  have hword : ¬ a.toNat % 16 < 12 := by omega
  have hk' : a.toNat % 16 - 12 = k := by omega
  rw [exec_judged (r := ⟨i, a, lock, .write ws⟩) rfl hwell ha hl,
    route_record (r := ⟨i, a, lock, .write ws⟩) hv hin hblock]
  simp only [hword, if_false, hk']
  rfl

theorem answerSettings_outOfRange {r : Request} {b : BayNo} {k : Nat} {ws : List (Mask × Word)} {s : State}
    (h : ((s.bay b).settings.merge k ws).inRange = false) :
    answerSettings r b k ws s = s.complete r.initiator .refuse := by
  simp [answerSettings, h]

/-- A locked write of the holder to another bay. -/
theorem answerSettings_otherBay {r : Request} {b : BayNo} {k : Nat} {ws : List (Mask × Word)} {s : State} {l : BayLock}
    (h : ((s.bay b).settings.merge k ws).inRange = true) (hl : s.access.lock = some l) (hlock : r.lock = true)
    (hi : l.holder = r.initiator) (hb : l.bay ≠ b) :
    answerSettings r b k ws s = s.complete r.initiator .refuse := by
  simp [answerSettings, h, hl, hlock, hi, hb]

/-- Another initiator holds a lock in the way. -/
theorem answerSettings_held {r : Request} {b : BayNo} {k : Nat} {ws : List (Mask × Word)} {s : State} {l : BayLock}
    (h : ((s.bay b).settings.merge k ws).inRange = true) (hl : s.access.lock = some l) (hi : l.holder ≠ r.initiator)
    (hway : r.lock = true ∨ l.bay = b) : answerSettings r b k ws s = s.complete r.initiator .retry := by
  by_cases hlock : r.lock = true
  · simp [answerSettings, h, hl, hlock, hi]
  · have hb : l.bay = b := hway.resolve_left hlock
    simp [answerSettings, h, hl, hlock, hi, hb, State.lockedAgainst]

/-- No lock is in the way. -/
theorem answerSettings_free {r : Request} {b : BayNo} {k : Nat} {ws : List (Mask × Word)} {s : State}
    (h : ((s.bay b).settings.merge k ws).inRange = true)
    (hl : ∀ l, s.access.lock = some l →
      (r.lock = true ∧ l.holder = r.initiator ∧ l.bay = b) ∨ (r.lock = false ∧ l.bay ≠ b)) :
    answerSettings r b k ws s =
      if (s.bay b).inFlight then s.complete r.initiator .retry
      else
        (s.setSettings b ((s.bay b).settings.merge k ws)).pass
          { r with access := .write (((s.bay b).settings.merge k ws).touched k ws.length) } (.settings b) := by
  cases hs : s.access.lock with
  | none => simp [answerSettings, h, hs, State.lockedAgainst]
  | some l =>
    rcases hl l hs with ⟨hlock, hi, hb⟩ | ⟨hlock, hb⟩
    · simp [answerSettings, h, hs, hlock, hi, hb, State.lockedAgainst]
    · simp [answerSettings, h, hs, hlock, hb, State.lockedAgainst]

/-- Settles O11: the answers of `answerSettings`, by the lock found. -/
theorem settingsWriteIsAnswered : Obligations.SettingsWriteIsAnswered := by
  unfold Obligations.SettingsWriteIsAnswered
  intro i a lock ws b k s ha hl hv hin hk h1 h4
  rw [exec_settingsWrite ha hl hv hin hk h1 h4]
  refine ⟨fun hout => ?_, fun hrange => ⟨?_, ?_, fun hfree => ?_⟩⟩
  · rw [answerSettings_outOfRange (s := s.clearAnswer) hout]
    rfl
  · rintro ⟨l, hs, hlock, hi, hb⟩
    rw [answerSettings_otherBay (s := s.clearAnswer) hrange hs hlock hi hb]
    rfl
  · rintro ⟨l, hs, hi, hway⟩
    rw [answerSettings_held (s := s.clearAnswer) hrange hs hi hway]
    rfl
  · rw [answerSettings_free (r := ⟨i, a, lock, .write ws⟩) (s := s.clearAnswer) hrange hfree]
    have hf : (s.clearAnswer.bay b).inFlight = (s.bay b).inFlight := rfl
    constructor
    · intro hflight
      rw [hf, if_pos hflight]
      rfl
    · intro hflight
      rw [hf, hflight]
      rfl

end Sys2Proof.Machine

/-! PROOFS. O12, O13, O14, O15: the release of the lock at presentation, and the words of the setup area. -/

namespace Sys2Proof.Machine

/-! ## Putting an entry back -/

@[simp] theorem setBay_self (s : State) (b : BayNo) : s.setBay b (s.bay b) = s := by
  unfold State.setBay State.bay
  rw [show s.bays.set b s.bays[b] = s.bays from Vector.set_getElem_self _]

/-- With no room the Feeder Arbiter grants nothing (R112). -/
theorem grantPass_of_not_canGrant {f : FeederNo} {s : State} (h : (s.feeder f).canGrant = false) (q : List (BayNo × Time)) :
    grantPass f q s = s := by
  induction q with
  | nil => rfl
  | cons x rest ih => simp only [grantPass, h, Bool.false_and, Bool.false_eq_true, if_false, ih]

theorem act_of_not_canGrant {f : FeederNo} {s : State} (h : (s.feeder f).canGrant = false) : act f s = s :=
  grantPass_of_not_canGrant h _

/-- With nothing waiting the Check Engine does nothing (R67). -/
theorem turn_of_idle {b : BayNo} {s : State} (h : (s.bay b).waiting = []) : turn b s = s := by
  unfold turn
  rw [h]
  split <;> rfl

/-! ## The release of the lock (R71, R183) -/

/-- The lock's bay after the release: its set-aside events are its waiting events. -/
def released (s : State) (l : BayLock) : State :=
  { s with
    access := { s.access with lock := none }
    bays :=
      s.bays.set l.bay
        { s.bay l.bay with
          waiting := releasedEvents (s.bay l.bay) (s.mailbox.progress == .awaitsUnlock l.bay), held := [], deferred := none }
    mailbox :=
      { s.mailbox with
        progress := if s.mailbox.progress = .awaitsUnlock l.bay then .awaitsTurn l.bay else s.mailbox.progress } }

theorem releaseLock_eq {s : State} {l : BayLock} (h : s.access.lock = some l) :
    releaseLock s = (act ((turn l.bay (released s l)).bay l.bay).feeder (turn l.bay (released s l))).wantRewrite := by
  have hlock : releaseLock s = unlocked l.bay { s with access := { s.access with lock := none } } := by
    simp only [releaseLock, h]
  rw [hlock]
  by_cases hp : s.mailbox.progress = .awaitsUnlock l.bay
  · simp only [unlocked, released, hp, beq_self_eq_true, if_true]
    rfl
  · have hb : (s.mailbox.progress == .awaitsUnlock l.bay) = false := beq_eq_false_iff_ne.2 hp
    simp only [unlocked, released, hp, hb, Bool.false_eq_true, if_false]
    rfl

theorem BayEntry.clear_of_nothing {e : BayEntry} (hw : e.waiting = []) (hh : e.held = []) (hd : e.deferred = none) :
    { e with waiting := [], held := [], deferred := none } = e := by
  cases e
  simp_all

theorem released_of_nothing {s : State} {l : BayLock} (hw : (s.bay l.bay).waiting = []) (hh : (s.bay l.bay).held = [])
    (hd : (s.bay l.bay).deferred = none) (hp : s.mailbox.progress ≠ .awaitsUnlock l.bay) :
    released s l = { s with access := { s.access with lock := none } } := by
  have hb : (s.mailbox.progress == .awaitsUnlock l.bay) = false := beq_eq_false_iff_ne.2 hp
  have hev : releasedEvents (s.bay l.bay) (s.mailbox.progress == .awaitsUnlock l.bay) = [] := by
    simp [releasedEvents, hh, hd, hb]
  have hentry := BayEntry.clear_of_nothing hw hh hd
  have hbays : s.bays.set l.bay (s.bay l.bay) = s.bays := Vector.set_getElem_self _
  unfold released
  rw [hev, hentry, hbays, if_neg hp]

theorem canGrant_eq_false {x : Feeder} (h : x.capacity ≤ x.grants.length + x.selfCount) : x.canGrant = false := by
  simp only [Feeder.canGrant, Bool.and_eq_false_iff]
  exact .inr (decide_eq_false (Nat.not_lt.2 h))

/-! ## No HALT begins in a turn -/

/-- The current command is the one it was, and a HALT that waits waited before. -/
structure NoHalt (s t : State) : Prop where
  current : t.mailbox.current = s.mailbox.current
  halting : t.mailbox.progress = .halting → s.mailbox.progress = .halting

theorem NoHalt.refl (s : State) : NoHalt s s := ⟨rfl, id⟩

theorem NoHalt.trans {s t u : State} (h : NoHalt s t) (h' : NoHalt t u) : NoHalt s u :=
  ⟨h'.current.trans h.current, fun hu => h.halting (h'.halting hu)⟩

theorem Still.noHalt {s t : State} (h : Still s t) : NoHalt s t := ⟨h.current, fun ht => h.progress ▸ ht⟩

theorem finish_noHalt (s : State) (r : Result) : NoHalt s (s.finish r) := by
  unfold State.finish
  split
  · exact .refl s
  · exact ⟨rfl, nofun⟩

theorem setProgress_noHalt (s : State) {p : Progress} (h : p ≠ .halting) : NoHalt s (s.setProgress p) :=
  ⟨rfl, fun hp => absurd hp h⟩

theorem beginCommand_noHalt (b : BayNo) (w : Work) (full : Bool) (s : State) : NoHalt s (beginCommand b w full s) :=
  (setProgress_noHalt s (p := .updating b) nofun).trans (commit_still b w full (s.setProgress (.updating b))).noHalt

theorem linkMap_noHalt (a : RadioAddr) (b : BayNo) (s : State) : NoHalt s (linkMap a b s) := by
  unfold linkMap
  split <;> exact ⟨rfl, id⟩

theorem turnCommand_noHalt (b : BayNo) (s : State) : NoHalt s (turnCommand b s) := by
  unfold turnCommand
  split
  · exact .refl s
  · split
    · unfold turnMapTag
      simp only []
      split
      · exact finish_noHalt s _
      · exact (linkMap_noHalt _ b s).trans (beginCommand_noHalt _ _ _ _)
    · unfold turnUnmapTag
      split
      · exact finish_noHalt s _
      · exact (NoHalt.mk rfl id : NoHalt s (linkUnmap _ b s)).trans (beginCommand_noHalt _ _ _ _)
    · unfold turnSetLoading
      split
      · exact finish_noHalt s _
      · exact beginCommand_noHalt _ _ _ _
    · unfold turnForceDefrost
      split
      · exact beginCommand_noHalt _ _ _ _
      · exact finish_noHalt s _
    · unfold turnCancelDefrost
      split
      · exact beginCommand_noHalt _ _ _ _
      · exact finish_noHalt s _
    · unfold turnAssignFeeder
      split
      · exact beginCommand_noHalt _ _ _ _
      · exact finish_noHalt s _
    · exact .refl s

theorem startEvent_noHalt {b : BayNo} {ev : BayEvent} {s : State} (unl : s.locked b = false) :
    NoHalt s (startEvent b ev s) := by
  by_cases hev : ev = .command
  · subst hev
    exact turnCommand_noHalt b s
  · exact (startEvent_calm hev unl).2.noHalt

theorem turnList_noHalt {b : BayNo} {l : List BayEvent} {s : State} (free : (s.bay b).inFlight = false)
    (unl : s.locked b = false) : NoHalt s (turnList b l s) := by
  induction l generalizing s with
  | nil => exact .refl s
  | cons ev rest ih =>
    have hfree : ((s.setWaiting b rest).bay b).inFlight = false := by simp [State.setWaiting, free]
    have hunl : (s.setWaiting b rest).locked b = false := unl
    have hlock := (Moves.locked (startEvent_moves b ev _ hfree hunl) b).trans hunl
    have hset : NoHalt s (s.setWaiting b rest) := ⟨rfl, id⟩
    have hstart := hset.trans (startEvent_noHalt (ev := ev) hunl)
    unfold turnList
    simp only []
    split
    · exact hstart
    · rename_i hidle
      exact hstart.trans (ih (eq_false_of_ne_true hidle) hlock)

theorem turn_noHalt (b : BayNo) (s : State) : NoHalt s (turn b s) := by
  unfold turn
  split
  · exact .refl s
  · rename_i hc
    simp only [Bool.or_eq_true, not_or, Bool.not_eq_true] at hc
    exact turnList_noHalt hc.1 hc.2

theorem released_noHalt (s : State) (l : BayLock) : NoHalt s (released s l) := by
  refine ⟨rfl, fun h => ?_⟩
  simp only [released] at h
  split at h
  · cases h
  · exact h

theorem releaseLock_noHalt {s : State} {l : BayLock} (h : s.access.lock = some l) : NoHalt s (releaseLock s) := by
  rw [releaseLock_eq h]
  exact ((released_noHalt s l).trans (turn_noHalt l.bay _)).trans
    ((act_calm _ _).2.trans (wantRewrite_calm _).2).noHalt

theorem releaseLock_moves {s : State} {l : BayLock} (h : s.access.lock = some l) :
    Moves { s with access := { s.access with lock := none } } (releaseLock s) := by
  have hlock : releaseLock s = unlocked l.bay { s with access := { s.access with lock := none } } := by
    simp only [releaseLock, h]
  rw [hlock]
  exact unlocked_moves _ _

theorem anyInFlight_iff (s : State) : s.anyInFlight = true ↔ ∃ b, (s.bay b).inFlight = true := by
  simp only [State.anyInFlight, Vector.any_iff_exists, State.bay]
  exact ⟨fun ⟨i, hi, h⟩ => ⟨⟨i, hi⟩, h⟩, fun ⟨b, h⟩ => ⟨b.val, b.isLt, h⟩⟩

end Sys2Proof.Machine

/-! PROOFS. O12, O13, O14, O15: the requests of a lock's holder, and the words of the setup area. -/

namespace Sys2Proof.Machine

/-! ## What a claim leaves -/

theorem noticeSettle_still (s : State) : Still s (noticeSettle s) := by
  unfold noticeSettle
  split
  · exact claim_still _ _
  · exact .refl s

@[simp] theorem noticeSettle_access (s : State) : (noticeSettle s).access = s.access := by
  unfold noticeSettle claim clearOrder
  split
  · split <;> rfl
  · rfl

@[simp] theorem noticeSettle_pins (s : State) : (noticeSettle s).pins = s.pins := by
  unfold noticeSettle claim clearOrder
  split
  · split <;> rfl
  · rfl

@[simp] theorem noticeSettle_status (s : State) : (noticeSettle s).status = s.status := by
  unfold noticeSettle claim clearOrder
  split
  · split <;> rfl
  · rfl

theorem noticeSettle_inFlight {s : State} {b : BayNo} (h : (s.bay b).inFlight = true) :
    ((noticeSettle s).bay b).inFlight = true := by
  unfold noticeSettle
  split
  · rw [claim_bay_inFlight, h]
  · exact h

/-! ## A request of the lock's holder (R181) -/

/-- No HALT becomes due in a run of moves in which none begins to wait, nor by the claim after it. -/
theorem haltDue_noticeSettle {s t : State} (h : s.haltDue = false) (hn : NoHalt s t)
    (hb : ∀ b, (s.bay b).inFlight = true → (t.bay b).inFlight = true) : (noticeSettle t).haltDue = false := by
  have hst := hn.trans (noticeSettle_still t).noHalt
  unfold State.haltDue at *
  rw [hst.current]
  by_cases hany : s.anyInFlight = true
  · obtain ⟨b, hf⟩ := (anyInFlight_iff s).1 hany
    simp [(anyInFlight_iff _).2 ⟨b, noticeSettle_inFlight (hb b hf)⟩]
  · by_cases hp : (noticeSettle t).mailbox.progress = .halting
    · have hcur : s.mailbox.current.isSome = false := by simpa [hst.halting hp, hany] using h
      simp [hcur]
    · simp [hp]

/-- The state a release at presentation leaves. -/
def relieved (s : State) : State := noticeSettle (releaseLock s.clearAnswer)

theorem relieved_lock {s : State} {l : BayLock} (h : s.access.lock = some l) : (relieved s).access.lock = none := by
  have hmoves := releaseLock_moves (s := s.clearAnswer) h
  simp only [relieved, noticeSettle_access]
  exact hmoves.lock

theorem relieved_wanted {s : State} {l : BayLock} (h : s.access.lock = some l) : (relieved s).status.wanted = true := by
  simp only [relieved, noticeSettle_status, releaseLock_eq (s := s.clearAnswer) h]
  rfl

theorem relieved_front {s : State} {l : BayLock} (h : s.access.lock = some l) (ha : s.front.outstanding = none) :
    (relieved s).front = ⟨none, none⟩ := by
  have hmoves := releaseLock_moves (s := s.clearAnswer) h
  have hreq := hmoves.request
  have hans := hmoves.answer
  have hnone : s.clearAnswer.front.outstanding = none := ha
  have hout : (releaseLock s.clearAnswer).front.outstanding = none := by
    simpa [hnone] using hreq
  unfold relieved
  rw [noticeSettle_front]
  generalize (releaseLock s.clearAnswer).front = f at *
  cases f
  simp only [FrontPort.mk.injEq] at *
  exact ⟨hout, hans⟩

theorem relieved_accepts {s : State} {l : BayLock} (h : s.access.lock = some l) (ha : Accepts s) :
    Accepts (relieved s) := by
  obtain ⟨⟨hreset, hdue⟩, hout⟩ := ha
  have hmoves := releaseLock_moves (s := s.clearAnswer) h
  refine ⟨⟨?_, ?_⟩, by rw [relieved_front h hout]⟩
  · simp only [relieved, noticeSettle_pins, hmoves.pins]
    exact hreset
  · exact haltDue_noticeSettle (s := s.clearAnswer) hdue (releaseLock_noHalt h) fun b hb => hmoves.inFlight hb

/-- A request of the lock's holder without the lock flag is judged on the state the release leaves. -/
theorem present_relieved {r : Request} {s : State} {l : BayLock} (h : s.access.lock = some l)
    (hi : l.holder = r.initiator) (hl : r.lock = false) (ha : s.front.outstanding = none) :
    present r s = present r (relieved s) := by
  have hby : s.clearAnswer.releasedBy r = true := by
    have hlock : s.clearAnswer.access.lock = some l := h
    simp [State.releasedBy, hl, hlock, hi]
  have hfree : (relieved s).releasedBy r = false := by simp [State.releasedBy, relieved_lock h]
  have hclear : (relieved s).clearAnswer = relieved s := by
    have hf := relieved_front h ha
    unfold State.clearAnswer
    generalize relieved s = u at *
    cases u
    simp_all
  rw [present_of_not_holder hfree, hclear]
  simp only [present, releaseAtPresentation, hby, if_true]
  rfl

/-- Settles O12: the holder's request is judged on the state the release leaves (`present_relieved`), and the release is the
turn of the bay's events (`releaseLock_eq`). -/
theorem holderReleasesTheLockFirst : Obligations.HolderReleasesTheLockFirst := by
  unfold Obligations.HolderReleasesTheLockFirst
  refine ⟨fun r l s hw ha h hi hl => ?_, fun l s h => ⟨fun hwait hheld hdef hp hroom => ?_, fun events u he hu => ?_⟩⟩
  · have hclear : s.clearAnswer = { s with front := ⟨none, none⟩ } := by
      show { s with front := ⟨s.front.outstanding, none⟩ } = _
      rw [ha.2]
    refine ⟨relieved s, by rw [← hclear]; rfl, relieved_lock h, relieved_wanted h, ?_⟩
    rw [exec_plainRequest hw, exec_plainRequest hw, requestStep_accepts ha, requestStep_accepts (relieved_accepts h ha),
      present_relieved h hi hl ha.2]
  · have hfree := released_of_nothing hwait hheld hdef hp
    have hturn : turn l.bay (released s l) = released s l := turn_of_idle (by rw [hfree]; exact hwait)
    have hroom' : ((released s l).feeder ((released s l).bay l.bay).feeder).canGrant = false := by
      rw [hfree]
      exact canGrant_eq_false hroom
    rw [releaseLock_eq h, hturn, act_of_not_canGrant hroom', hfree]
    rfl
  · have hev : events = releasedEvents (s.bay l.bay) (s.mailbox.progress == .awaitsUnlock l.bay) := by
      rw [he, releasedEvents]
      cases (s.bay l.bay).deferred <;> simp
    have hu' : u = turn l.bay (released s l) := by
      rw [hu, hev]
      rfl
    rw [releaseLock_eq h, ← hu']

/-! ## Words of the setup area -/

/-- Settles O13: the answers of `answerArgument` and of a command word of 0. -/
theorem argumentAndZeroWordsAreAnswered : Obligations.ArgumentAndZeroWordsAreAnswered := by
  unfold Obligations.ArgumentAndZeroWordsAreAnswered
  refine ⟨fun i x v s ha hn => ?_, fun i s ha hn => ?_⟩
  · have hexec : exec (.argumentWrite i x v) s =
        .next (settle (answerArgument (setupWrite s.decoder i (argOffset x) v) x s.clearAnswer)) := by
      show requestStep (setupWrite s.decoder i (argOffset x) v) s = _
      rw [requestStep_accepts ha, present_of_not_holder (notHolder_releasedBy hn), route_argument]
      rfl
    have hstate : s.clearAnswer.mailbox.state = s.mailbox.state := rfl
    rw [hexec]
    refine ⟨fun hb => ?_, fun hb => ?_⟩
    · simp only [answerArgument, hstate, hb, if_true]
      rfl
    · simp only [answerArgument, hstate, hb, if_false]
      cases x <;> rfl
  · have hexec (hb : s.mailbox.state ≠ .busy) : exec (.commandWordZero i) s =
        .next (settle ((acknowledge s.clearAnswer).pass (setupWrite s.decoder i 0 0) .commandWord)) := by
      show requestStep (setupWrite s.decoder i 0 0) s = _
      have hb' : s.clearAnswer.mailbox.state ≠ .busy := hb
      rw [requestStep_accepts ha, present_of_not_holder (notHolder_releasedBy hn), route_command]
      simp only [answer, answerCommand, hb', if_false, if_true]
    have hstate : s.clearAnswer.mailbox.state = s.mailbox.state := rfl
    refine ⟨fun hm => ?_, fun hm => ?_⟩
    · rw [hexec (by rw [hm]; nofun)]
      simp only [acknowledge, hstate, hm, reduceCtorEq, if_false]
      rfl
    · rw [hexec (by rw [hm]; nofun)]
      simp only [acknowledge, hstate, hm, if_true]
      rfl

theorem consume_shadow (q : Ring) (v : BitVec 8) (n : Fin 256) :
    (q.consume v).shadow[n] =
      if (BitVec.ofNat 8 n.val - q.consumer).toNat < (v - q.consumer).toNat then none else q.shadow[n] :=
  Vector.getElem_ofFn n.isLt

/-- Settles O14: the answers of `answerConsumer`. -/
theorem consumerIndexWriteIsAnswered : Obligations.ConsumerIndexWriteIsAnswered := by
  unfold Obligations.ConsumerIndexWriteIsAnswered
  intro i v s ha hn
  have hexec : exec (.consumerIndexWrite i v) s =
      .next (settle (answerConsumer (setupWrite s.decoder i 8 v) v s.clearAnswer)) := by
    show requestStep (setupWrite s.decoder i 8 v) s = _
    rw [requestStep_accepts ha, present_of_not_holder (notHolder_releasedBy hn), route_consumer]
    rfl
  have hring : s.clearAnswer.ring = s.ring := rfl
  rw [hexec]
  refine ⟨fun hout => ?_, fun h255 hspan => ?_⟩
  · have hspan : s.ring.inSpan v = false := by
      simp only [Ring.inSpan, Bool.and_eq_false_iff, decide_eq_false_iff_not, Nat.not_le]
      exact hout
    simp only [answerConsumer, hring, hspan, Bool.false_eq_true, if_false]
    rfl
  · have hin : s.ring.inSpan v = true := by
      simp only [Ring.inSpan, Bool.and_eq_true, decide_eq_true_eq]
      exact ⟨h255, hspan⟩
    refine ⟨(s.ring.consume (v.setWidth 8)).shadow, fun n => ⟨fun h => ?_, fun h => ?_⟩, ?_⟩
    · rw [consume_shadow, if_pos h]
    · rw [consume_shadow, if_neg (Nat.not_lt.2 h)]
    · simp only [answerConsumer, hring, hin, if_true]
      rfl

/-- Settles O15: a command word is routed to the mailbox, which is BUSY. -/
theorem busyMailboxRetriesCommandWords : Obligations.BusyMailboxRetriesCommandWords := by
  unfold Obligations.BusyMailboxRetriesCommandWords
  intro c i v s hc hr ha hn hb
  have hb' : s.clearAnswer.mailbox.state = .busy := hb
  rw [exec_judged hr hc ha (.inr hn), setupWord_eq, route_command]
  simp only [answer, answerCommand, hb', if_true]
  rfl

end Sys2Proof.Machine

/-! PROOFS. O16, O17: a command word that is taken, SET_WINDOW, SET_TIMING, SET_TIME and CLEAR_COUNTERS. -/

namespace Sys2Proof.Machine

/-! ## Taking a command (R188, R189) -/

theorem takeCommand_eq {s : State} (code : Word) (h : s.front.outstanding = none) :
    s.clearAnswer.takeCommand (taken s.mailbox code) = commandWaits s code .none := by
  have hfront : s.clearAnswer.front = ⟨none, none⟩ := by
    show (⟨s.front.outstanding, none⟩ : FrontPort) = _
    rw [h]
  have hstate : s.clearAnswer.mailbox.state = s.mailbox.state := rfl
  unfold State.takeCommand State.leaveDone
  by_cases hd : s.mailbox.state = .done
  · simp only [hstate, hd, if_true]
    simp only [State.wantRewrite, commandWaits, hfront, hd, beq_self_eq_true, Bool.or_true]
    rfl
  · have hb : (s.mailbox.state == .done) = false := beq_eq_false_iff_ne.2 hd
    simp only [hstate, hd, if_false, commandWaits, hfront, hb, Bool.or_false]
    rfl

theorem commandWaits_finish (s : State) (code : Word) (p : Progress) (r : Result) :
    (commandWaits s code p).finish r = commandFinished s code r := rfl

theorem commandWaits_setProgress (s : State) (code : Word) (p q : Progress) :
    (commandWaits s code p).setProgress q = commandWaits s code q := rfl

/-- The step of a row whose command word is taken and whose command, run, leaves `u`. -/
theorem exec_command {c : Instr} {i : Initiator} {code : Word} {s u : State}
    (hr : requestOf s c = some (setupWord s i 0 code)) (hc : c.wellFormed = true) (ho : Open s i) (h0 : code ≠ 0)
    (hrun : runCommand (taken s.mailbox code) (commandWaits s code .none) = u)
    (hm : u.decoder.memSize = s.decoder.memSize) : exec c s = .next (commandStep u i code) := by
  obtain ⟨ha, hn, hb⟩ := ho
  have hb' : s.clearAnswer.mailbox.state ≠ .busy := hb
  have hword : setupWord u i 0 code = setupWord s i 0 code := by simp only [setupWord, hm]
  have htaken : takeAndRun code s.clearAnswer = u := by
    rw [← hrun, ← takeCommand_eq code ha.2]
    rfl
  rw [exec_judged hr hc ha (.inr hn), setupWord_eq, route_command]
  simp only [answer, answerCommand, hb', h0, if_false, htaken, commandStep, hword, setupWord_eq]
  rfl

/-! ## SET_WINDOW (R6) -/

theorem windowNamed_of_gt {a : Nat} (h : 2 < a) : windowNamed a = none := by
  simp [windowNamed, show a ≠ 0 by omega, show a ≠ 1 by omega, show a ≠ 2 by omega]

/-- The number of a window (R6). -/
def WindowName.number : WindowName → Nat
  | .inbox => 0
  | .bays => 1
  | .ring => 2

theorem windowNamed_number (n : WindowName) : windowNamed n.number = some n := by cases n <;> rfl

/-- The most pages a window may have (R5). -/
def WindowName.most : WindowName → Nat
  | .inbox => 4
  | .bays => 3
  | .ring => 1

theorem pagesAllowed_iff (k : Nat) (n : WindowName) : pagesAllowed (k + 1) n = true ↔ k + 1 ≤ n.most := by
  cases n <;> simp [pagesAllowed, WindowName.most]

/-- Two windows meet where they have a page in common. -/
theorem meets_iff {base limit : Nat} (h : base ≤ limit) (y : Window) :
    (⟨base, limit⟩ : Window).meets y = true ↔ ∃ p, base ≤ p ∧ p ≤ limit ∧ y.HasPage p := by
  constructor
  · intro hm
    simp only [Window.meets, Window.on, Bool.and_eq_true, decide_eq_true_eq] at hm
    exact ⟨max base y.base, by omega, by omega, by unfold Window.HasPage; omega⟩
  · rintro ⟨p, hlow, hhigh, hp⟩
    exact Window.meets_of_hasPage ⟨hlow, hhigh⟩ hp

theorem overlaps_iff {base limit : Nat} (h : base ≤ limit) (w : Windows) (n : WindowName) :
    w.overlaps ⟨base, limit⟩ n = true ↔ ∃ k, k ≠ n ∧ ∃ p, base ≤ p ∧ p ≤ limit ∧ (w.get k).HasPage p := by
  have hmeets : w.overlaps ⟨base, limit⟩ n = true ↔ ∃ k, k ≠ n ∧ (⟨base, limit⟩ : Window).meets (w.get k) = true := by
    constructor
    · intro ho
      cases n <;> simp only [Windows.overlaps, Bool.or_eq_true] at ho
      · exact ho.elim (fun ho => ⟨.bays, nofun, ho⟩) fun ho => ⟨.ring, nofun, ho⟩
      · exact ho.elim (fun ho => ⟨.inbox, nofun, ho⟩) fun ho => ⟨.ring, nofun, ho⟩
      · exact ho.elim (fun ho => ⟨.inbox, nofun, ho⟩) fun ho => ⟨.bays, nofun, ho⟩
    · rintro ⟨k, hk, hm⟩
      by_contra ho
      rw [Windows.not_meets_of_not_overlaps (eq_false_of_ne_true ho) hk] at hm
      cases hm
  rw [hmeets]
  simp only [meets_iff h]

theorem newWindow_off {d : Decoder} {n : WindowName} {base limit : Nat} (h : limit < base) :
    newWindow d n base limit = some ⟨1023, 0⟩ := if_pos h

/-- The rows of R6 that refuse a window. -/
def WindowRefused (d : Decoder) (n : WindowName) (base limit : Nat) : Prop :=
  pagesOf d.memSize ≤ limit ∨ n.most < limit - base + 1
    ∨ (base ≤ pagesOf d.memSize - 1 ∧ pagesOf d.memSize - 1 ≤ limit)
    ∨ ∃ k, k ≠ n ∧ ∃ p, base ≤ p ∧ p ≤ limit ∧ (d.windows.get k).HasPage p

theorem newWindow_refused {d : Decoder} {n : WindowName} {base limit : Nat} (hle : base ≤ limit)
    (h : WindowRefused d n base limit) : newWindow d n base limit = none := by
  unfold newWindow
  rw [if_neg (Nat.not_lt.2 hle)]
  by_cases hmem : pagesOf d.memSize ≤ limit
  · rw [if_pos hmem]
  rw [if_neg hmem]
  by_cases hpages : pagesAllowed (limit - base + 1) n = true
  swap
  · rw [if_pos (by simpa using hpages)]
  rw [if_neg (by simp [hpages])]
  by_cases hsetup : base ≤ pagesOf d.memSize - 1 ∧ pagesOf d.memSize - 1 ≤ limit
  · rw [if_pos (by simpa using hsetup)]
  rw [if_neg (by simpa using hsetup)]
  rcases h with h | h | h | h
  · exact absurd h hmem
  · exact absurd ((pagesAllowed_iff _ n).1 hpages) (Nat.not_le.2 h)
  · exact absurd h hsetup
  · rw [if_pos ((overlaps_iff hle _ _).2 h)]

theorem newWindow_taken {d : Decoder} {n : WindowName} {base limit : Nat} (hle : base ≤ limit)
    (h : ¬ WindowRefused d n base limit) : newWindow d n base limit = some ⟨base, limit⟩ := by
  unfold WindowRefused at h
  simp only [not_or] at h
  obtain ⟨hmem, hpages, hsetup, hover⟩ := h
  unfold newWindow
  rw [if_neg (Nat.not_lt.2 hle), if_neg hmem, if_neg (by simp [(pagesAllowed_iff _ n).2 (Nat.not_lt.1 hpages)]),
    if_neg (by simpa using hsetup), if_neg (by rwa [overlaps_iff hle])]

theorem commandSetWindow_named {cmd : Command} {s : State} {n : WindowName} (hm : s.decoder.mode = .pass)
    (ha : cmd.a.toNat = n.number) :
    commandSetWindow cmd s =
      match newWindow s.decoder n cmd.b.toNat cmd.c.toNat with
      | none => s.finish .badArg
      | some x => State.finish { s with decoder := { s.decoder with windows := s.decoder.windows.put x n } } .ok := by
  simp only [commandSetWindow, hm, ha, windowNamed_number, ne_eq, not_true_eq_false, if_false] <;> rfl

/-- Settles O16: the rows of R6, each the outcome of `newWindow`. -/
theorem setWindowFollowsItsTable : Obligations.SetWindowFollowsItsTable := by
  unfold Obligations.SetWindowFollowsItsTable
  intro i s ho
  have hexec {u : State} (hrun : commandSetWindow (taken s.mailbox 1) (commandWaits s 1 .none) = u)
      (hm : u.decoder.memSize = s.decoder.memSize) : exec (.setWindow i) s = .next (commandStep u i 1) :=
    exec_command rfl rfl ho (by decide) hrun hm
  have hmode : (commandWaits s 1 .none).decoder.mode = s.decoder.mode := rfl
  refine ⟨fun hm => hexec ?_ rfl, fun hm ha => hexec ?_ rfl, fun n hm ha => ?_⟩
  · simp only [commandSetWindow, hmode, ne_eq, hm, not_false_eq_true, if_true, commandWaits_finish]
  · have ha' : windowNamed (taken s.mailbox 1).a.toNat = none := windowNamed_of_gt ha
    simp only [commandSetWindow, hmode, hm, ne_eq, not_true_eq_false, if_false, ha', commandWaits_finish]
  · have ha' : (taken s.mailbox 1).a.toNat = n.number := by
      rw [show (taken s.mailbox 1).a = s.mailbox.argA from rfl, ha]
      cases n <;> rfl
    have hset : commandSetWindow (taken s.mailbox 1) (commandWaits s 1 .none) =
        match newWindow s.decoder n s.mailbox.argB.toNat s.mailbox.argC.toNat with
        | none => commandFinished s 1 .badArg
        | some x =>
          { commandFinished s 1 .ok with decoder := { s.decoder with windows := s.decoder.windows.put x n } } :=
      commandSetWindow_named (s := commandWaits s 1 .none) hm ha'
    refine ⟨fun hoff => hexec ?_ rfl, fun hle => ⟨fun hbad => hexec ?_ rfl, fun h1 h2 h3 h4 => hexec ?_ rfl⟩⟩
    · rw [hset, newWindow_off hoff]
    · have hrefused : WindowRefused s.decoder n s.mailbox.argB.toNat s.mailbox.argC.toNat := by cases n <;> exact hbad
      rw [hset, newWindow_refused hle hrefused]
    · have hmost : s.mailbox.argC.toNat - s.mailbox.argB.toNat + 1 ≤ n.most := by cases n <;> exact h2
      have hfits : ¬ WindowRefused s.decoder n s.mailbox.argB.toNat s.mailbox.argC.toNat := by
        rintro (h | h | h | ⟨k, hk, p, hlow, hhigh, hp⟩)
        · omega
        · omega
        · exact h3 h
        · exact h4 k hk p hlow hhigh hp
      rw [hset, newWindow_taken hle hfits]

/-! ## SET_TIMING (R192) -/

/-- The parameters with parameter `a` set to `v`. -/
def Params.put (p : Params) (a v : Nat) : Params :=
  match a with
  | 0 => { p with silenceLimit := v }
  | 1 => { p with startWindow := v }
  | 2 => { p with maxDefrost := v }
  | 3 => { p with stopWindow := v }
  | 4 => { p with drainTime := v }
  | 5 => { p with restoreDelay := v }
  | 6 => { p with reclaimTime := v }
  | 7 => { p with lockHoldLimit := v }
  | 8 => { p with proofCount := v }
  | 9 => { p with lapseCount := v }
  | 10 => { p with iceConfirm := v }
  | 11 => { p with maxAttempts := v }
  | _ => p

theorem newParams_of_none {p : Params} {a v : Nat} (h : paramRange a = none) : newParams p a v = none := by
  unfold newParams
  split
  case h_13 => rfl
  all_goals cases h

theorem newParams_of_some {p : Params} {a v lo hi : Nat} (h : paramRange a = some (lo, hi)) :
    newParams p a v = if lo ≤ v ∧ v ≤ hi then some (p.put a v) else none := by
  unfold newParams
  split
  case h_13 h0 h1 h2 h3 h4 h5 h6 h7 h8 h9 h10 h11 => simp [paramRange] at h
  all_goals
    cases h
    simp [Params.put]

theorem paramOf_put_self {p : Params} {a v lo hi : Nat} (h : paramRange a = some (lo, hi)) :
    paramOf (p.put a v) a = some v := by
  unfold Params.put
  split
  case h_13 h0 h1 h2 h3 h4 h5 h6 h7 h8 h9 h10 h11 => simp [paramRange] at h
  all_goals rfl

theorem paramOf_put_of_ne {p : Params} {a k v : Nat} (h : k ≠ a) : paramOf (p.put a v) k = paramOf p k := by
  unfold Params.put
  split
  case h_13 => rfl
  all_goals
    unfold paramOf
    split <;> first | rfl | exact absurd rfl h

/-- Settles O17: the three commands, each of which finishes at once. -/
theorem timingClockAndCountersAreSet : Obligations.TimingClockAndCountersAreSet := by
  unfold Obligations.TimingClockAndCountersAreSet
  refine ⟨fun i s ho => ?_, fun i s ho => ⟨exec_command rfl rfl ho (by decide) rfl rfl, exec_command rfl rfl ho (by decide) rfl rfl⟩⟩
  have hexec {u : State} (hrun : commandSetTiming (taken s.mailbox 2) (commandWaits s 2 .none) = u)
      (hm : u.decoder.memSize = s.decoder.memSize) : exec (.setTiming i) s = .next (commandStep u i 2) :=
    exec_command rfl rfl ho (by decide) hrun hm
  have hset : commandSetTiming (taken s.mailbox 2) (commandWaits s 2 .none) =
      match newParams s.params s.mailbox.argA.toNat s.mailbox.argB.toNat with
      | some p => { commandFinished s 2 .ok with params := p }
      | none => commandFinished s 2 .badArg := rfl
  refine ⟨fun h => hexec ?_ rfl, fun lo hi h => ⟨fun hout => hexec ?_ rfl, fun hlo hhi => ?_⟩⟩
  · rw [hset, newParams_of_none h]
  · rw [hset, newParams_of_some h, if_neg (by omega)]
  · refine ⟨s.params.put s.mailbox.argA.toNat s.mailbox.argB.toNat, paramOf_put_self h,
      fun k hk => paramOf_put_of_ne hk, hexec ?_ rfl⟩
    rw [hset, newParams_of_some h, if_pos ⟨hlo, hhi⟩]

end Sys2Proof.Machine

/-! PROOFS. O18, O19, O20: RUN, HALT and its completion, INJECT, SET_FEEDER, and the notice sources. -/

namespace Sys2Proof.Machine

/-! ## RUN and HALT (R14) -/

theorem allOn_iff (w : Windows) : w.allOn = true ↔ ∀ n, (w.get n).base ≤ (w.get n).limit := by
  simp only [Windows.allOn, Window.on, Bool.and_eq_true, decide_eq_true_eq]
  constructor
  · rintro ⟨⟨hi, hb⟩, hr⟩ n
    cases n
    · exact hi
    · exact hb
    · exact hr
  · exact fun h => ⟨⟨h .inbox, h .bays⟩, h .ring⟩

theorem anyInFlight_eq_false (s : State) : s.anyInFlight = false ↔ ∀ b, (s.bay b).inFlight = false := by
  rw [← Bool.not_eq_true, anyInFlight_iff]
  simp

theorem commandRun_of_pass {s : State} (h : s.decoder.mode = .pass) :
    commandRun s = if s.decoder.windows.allOn then (s.setMode .run).finish .ok else s.finish .badState := by
  simp only [commandRun, h]

theorem commandRun_of_run {s : State} (h : s.decoder.mode = .run) : commandRun s = s.finish .ok := by
  simp only [commandRun, h]

theorem commandRun_of_halted {s : State} (h : s.decoder.mode = .halted) : commandRun s = (s.setMode .run).finish .ok := by
  simp only [commandRun, h]

theorem commandHalt_of_pass {s : State} (h : s.decoder.mode = .pass) : commandHalt s = s.finish .badState := by
  simp only [commandHalt, h]

theorem commandHalt_of_run {s : State} (h : s.decoder.mode = .run) :
    commandHalt s =
      if s.anyInFlight then (s.setMode .halted).setProgress .halting else (s.setMode .halted).finish .ok := by
  simp only [commandHalt, h]

theorem commandHalt_of_halted {s : State} (h : s.decoder.mode = .halted) : commandHalt s = s.finish .ok := by
  simp only [commandHalt, h]

/-! ## The completion of a HALT that waits -/

@[simp] theorem noticeSettle_mailbox (s : State) : (noticeSettle s).mailbox = s.mailbox := by
  unfold noticeSettle claim clearOrder
  split
  · split <;> rfl
  · rfl

@[simp] theorem noticeSettle_pending (s : State) : (noticeSettle s).pending = s.pending := by
  unfold noticeSettle claim clearOrder
  split
  · split <;> rfl
  · rfl

theorem settle_mailbox (s : State) : (settle s).mailbox = s.mailbox := by
  unfold settle
  rw [statusSettle_eq]
  exact noticeSettle_mailbox s

theorem settle_pins (s : State) : (settle s).pins = s.pins := by
  unfold settle
  rw [statusSettle_eq]
  exact noticeSettle_pins s

theorem settle_pending (s : State) : (settle s).pending = s.pending := by
  unfold settle
  rw [statusSettle_eq]
  exact noticeSettle_pending s

theorem completeHalt_eq {s : State} {cmd : Command} (h : s.mailbox.current = some cmd) :
    completeHalt s =
      { s with
        mailbox := resultIn s.mailbox cmd.code .ok
        status := { s.status with wanted := true, resultPending := true } } := by
  unfold completeHalt State.finish
  split
  · rename_i hnone
    rw [wantRewrite_mailbox, h] at hnone
    cases hnone
  · rename_i cmd' hcmd
    rw [wantRewrite_mailbox, h] at hcmd
    cases hcmd
    rfl

theorem haltDue_iff (s : State) :
    s.haltDue = true ↔
      s.mailbox.progress = .halting ∧ s.mailbox.current.isSome = true ∧ ∀ b, (s.bay b).inFlight = false := by
  simp only [State.haltDue, Bool.and_eq_true, beq_iff_eq, Bool.not_eq_true', anyInFlight_eq_false, and_assoc]

theorem haltDue_eq_false_of_progress {s : State} (h : s.mailbox.progress ≠ .halting) : s.haltDue = false := by
  simp [State.haltDue, h]

/-- The request a row spells depends on the memory size alone. -/
theorem requestOf_congr {s t : State} (h : t.decoder.memSize = s.decoder.memSize) (c : Instr) :
    requestOf t c = requestOf s c := by
  cases c
  case argumentWrite i x v => cases x <;> simp only [requestOf, setupWord, h]
  all_goals simp only [requestOf, setupWord, h]

/-- What an event finds after the HALT whose moment has come. -/
def afterHalt (s : State) : State := settle (completeHalt s)

theorem afterHalt_pins (s : State) : (afterHalt s).pins = s.pins := by
  unfold afterHalt
  rw [settle_pins]
  exact (finish_moves .ok s.wantRewrite).pins

theorem afterHalt_pending (s : State) : (afterHalt s).pending = s.pending := by
  unfold afterHalt
  rw [settle_pending]
  exact (finish_moves .ok s.wantRewrite).pending

theorem afterHalt_decoder (s : State) : (afterHalt s).decoder = s.decoder := by
  unfold afterHalt
  rw [settle_decoder]
  exact (finish_moves .ok s.wantRewrite).decoder

theorem afterHalt_progress {s : State} (h : s.haltDue = true) : (afterHalt s).mailbox.progress = .finished := by
  obtain ⟨-, hc, -⟩ := (haltDue_iff s).1 h
  obtain ⟨cmd, hcmd⟩ := Option.isSome_iff_exists.1 hc
  unfold afterHalt
  rw [settle_mailbox, completeHalt_eq hcmd]
  rfl

theorem afterHalt_live {s : State} (hr : s.pins.resetN = true) (h : s.haltDue = true) : Live (afterHalt s) :=
  ⟨by rw [afterHalt_pins]; exact hr, haltDue_eq_false_of_progress (by rw [afterHalt_progress h]; nofun)⟩

/-- Every event finds the HALT complete (log 31). -/
theorem event_afterHalt {s : State} (hr : s.pins.resetN = true) (h : s.haltDue = true) (p : State → Bool)
    (f : State → State) : event s p f = event (afterHalt s) p f := by
  rw [event_of_haltDue hr h, event_of_live (afterHalt_live hr h)]
  rfl

theorem execHaltComplete_not_due {s : State} (h : s.haltDue = false) : exec .haltComplete s = .next s := by
  simp [exec, execHaltComplete, happen, h]

theorem execHaltComplete_due {s : State} (hr : s.pins.resetN = true) (h : s.haltDue = true) :
    exec .haltComplete s = .next (afterHalt s) := by
  simp [exec, execHaltComplete, happen, h, hr, afterHalt]

theorem exec_afterHalt {s : State} (hr : s.pins.resetN = true) (h : s.haltDue = true) {c : Instr} (hc : c.wellFormed = true)
    (hfall : c ≠ .resetNFall) (hrelease : ∀ m, c ≠ .resetNRelease m) : exec c s = exec c (afterHalt s) := by
  have hr' : (afterHalt s).pins.resetN = true := by rw [afterHalt_pins]; exact hr
  have hevent := event_afterHalt hr h
  cases hreq : requestOf s c with
  | some r =>
    have hreq' : requestOf (afterHalt s) c = some r := by
      rw [requestOf_congr (s := s) (by rw [afterHalt_decoder]), hreq]
    rw [exec_of_request hreq, exec_of_request hreq', if_pos hc, if_pos hc]
    exact hevent _ _
  | none =>
    cases c <;> simp only [requestOf, reduceCtorEq] at hreq
    case argumentWrite i x v => cases x <;> cases hreq
    case resetNFall => exact absurd rfl hfall
    case resetNRelease m => exact absurd rfl (hrelease m)
    case haltComplete =>
      rw [execHaltComplete_due hr h, execHaltComplete_not_due (afterHalt_live hr h).2]
    case feederOkFall f =>
      simp only [exec, execFeederOkFall, hr, hr', if_true]
      exact hevent _ _
    case feederOkRise f =>
      simp only [exec, execFeederOkRise, hr, hr', if_true]
      exact hevent _ _
    all_goals exact hevent _ _

theorem step_of_empty {s : State} (h : s.pending = []) : step s = event s (fun _ => true) refclkPeriod := by
  unfold step
  rw [h]
  rfl

/-- Settles O18: RUN and HALT by the mode found, and the completion of a HALT that waits (`exec_afterHalt`). -/
theorem runAndHaltFollowTheirTable : Obligations.RunAndHaltFollowTheirTable := by
  unfold Obligations.RunAndHaltFollowTheirTable
  refine ⟨fun i s ho => ?_, fun cmd s s1 hr hp hcur hfree hs1 => ?_, fun s h => ?_⟩
  · have hrun {u : State} (h : commandRun (commandWaits s 3 .none) = u) (hm : u.decoder.memSize = s.decoder.memSize) :
        exec (.run i) s = .next (commandStep u i 3) := exec_command rfl rfl ho (by decide) h hm
    have hhalt {u : State} (h : commandHalt (commandWaits s 4 .none) = u) (hm : u.decoder.memSize = s.decoder.memSize) :
        exec (.halt i) s = .next (commandStep u i 4) := exec_command rfl rfl ho (by decide) h hm
    have hon : (commandWaits s 3 .none).decoder.windows = s.decoder.windows := rfl
    have hany : (commandWaits s 4 .none).anyInFlight = s.anyInFlight := rfl
    refine ⟨fun hm h => hrun ?_ rfl, fun hm h => hrun ?_ rfl, fun hm => hrun (commandRun_of_run hm) rfl,
      fun hm => hrun (commandRun_of_halted hm) rfl, fun hm => hhalt (commandHalt_of_pass hm) rfl, fun hm h => hhalt ?_ rfl,
      fun hm h => hhalt ?_ rfl, fun hm => hhalt (commandHalt_of_halted hm) rfl⟩
    · rw [commandRun_of_pass (s := commandWaits s 3 .none) hm, hon, if_pos ((allOn_iff _).2 h)]
      rfl
    · have hoff : ¬ s.decoder.windows.allOn = true := by
        rw [allOn_iff]
        obtain ⟨n, hn⟩ := h
        exact fun hall => absurd (hall n) (Nat.not_le.2 hn)
      rw [commandRun_of_pass (s := commandWaits s 3 .none) hm, hon, if_neg hoff]
      rfl
    · rw [commandHalt_of_run (s := commandWaits s 4 .none) hm, hany, (anyInFlight_eq_false s).2 h]
      rfl
    · rw [commandHalt_of_run (s := commandWaits s 4 .none) hm, hany, if_pos ((anyInFlight_iff s).2 h)]
      rfl
  · have hdue : s.haltDue = true := (haltDue_iff s).2 ⟨hp, by rw [hcur]; rfl, hfree⟩
    have hs1 : s1 = afterHalt s := by rw [hs1, ← completeHalt_eq hcur]; rfl
    subst hs1
    refine ⟨execHaltComplete_due hr hdue, fun c hc hfall hrel => exec_afterHalt hr hdue hc hfall hrel, fun hnone => ?_⟩
    rw [step_of_empty hnone, step_of_empty (by rw [afterHalt_pending]; exact hnone)]
    exact event_afterHalt hr hdue _ _
  · refine execHaltComplete_not_due (eq_false_of_ne_true fun hdue => ?_)
    obtain ⟨hp, -, hfree⟩ := (haltDue_iff s).1 hdue
    rcases h with h | ⟨b, hb⟩
    · exact h hp
    · rw [hfree b] at hb
      cases hb

/-! ## INJECT and SET_FEEDER (R42, R121) -/

theorem injectKind_of_gt {b : Nat} (h : 3 < b) : injectKind b = none := by
  match b, h with
  | b + 4, _ => rfl

/-- INJECT past its first two rows. -/
theorem commandInject_served {cmd : Command} {s : State} (hm : s.decoder.mode ≠ .pass)
    (hserved : s.decoder.windows.servesRadio cmd.a.toNat = true) :
    commandInject cmd s =
      match injectKind cmd.b.toNat with
      | none => s.finish .badArg
      | some k => State.finish { s with link := { s.link with injection := k.map fun x => (cmd.a.setWidth 10, x) } } .ok := by
  simp only [commandInject, hm, hserved, Bool.not_true, Bool.false_eq_true, if_false] <;> rfl

theorem feederNamed_val (f : FeederNo) : feederNamed f.val = some f := by simp [feederNamed]

theorem feederNamed_of_gt {a : Nat} (h : 7 < a) : feederNamed a = none := by
  simp [feederNamed, Nat.not_lt.2 (show 8 ≤ a from h)]

theorem commandSetFeeder_refused {cmd : Command} {s : State} (h : 7 < cmd.a.toNat ∨ 8 < cmd.b.toNat) :
    commandSetFeeder cmd s = s.finish .badArg := by
  unfold commandSetFeeder
  rcases h with h | h
  · rw [feederNamed_of_gt h]
  · split
    · rfl
    · rw [if_pos h]

theorem commandSetFeeder_named {cmd : Command} {s : State} {f : FeederNo} (ha : cmd.a.toNat = f.val)
    (hb : cmd.b.toNat ≤ 8) :
    commandSetFeeder cmd s =
      if (s.feeder f).capacity < cmd.b.toNat then
        act f ((s.setFeeder f { s.feeder f with capacity := cmd.b.toNat }).finish .ok)
      else (s.setFeeder f { s.feeder f with capacity := cmd.b.toNat }).finish .ok := by
  simp only [commandSetFeeder, ha, feederNamed_val, Nat.not_lt.2 hb, if_false]

/-- Settles O19: INJECT by its second argument, SET_FEEDER by the old capacity. -/
theorem injectAndSetFeederFollowTheirTables : Obligations.InjectAndSetFeederFollowTheirTables := by
  unfold Obligations.InjectAndSetFeederFollowTheirTables
  refine ⟨fun i s ho => ?_, fun i s ho => ⟨fun h => ?_, fun f ha hb => ⟨fun hle => ?_, fun hlt => ?_⟩⟩⟩
  · have hexec {u : State} (h : commandInject (taken s.mailbox 13) (commandWaits s 13 .none) = u)
        (hm : u.decoder.memSize = s.decoder.memSize) : exec (.inject i) s = .next (commandStep u i 13) :=
      exec_command rfl rfl ho (by decide) h hm
    refine ⟨fun hm => hexec (if_pos hm) rfl, fun hm hserved => hexec ?_ rfl, fun hm hserved => ?_⟩
    · have hm' : (commandWaits s 13 .none).decoder.mode ≠ .pass := hm
      have hserved' : (commandWaits s 13 .none).decoder.windows.servesRadio (taken s.mailbox 13).a.toNat = false := hserved
      simp only [commandInject, hm', hserved', if_false, Bool.not_false, if_true]
      rfl
    · have hset : commandInject (taken s.mailbox 13) (commandWaits s 13 .none) =
          match injectKind s.mailbox.argB.toNat with
          | none => commandFinished s 13 .badArg
          | some k =>
            { commandFinished s 13 .ok with
              link := { s.link with injection := k.map fun x => (s.mailbox.argA.setWidth 10, x) } } :=
        commandInject_served (s := commandWaits s 13 .none) hm hserved
      refine ⟨fun hb => hexec ?_ rfl, fun k hk => hexec ?_ rfl, fun hb => hexec ?_ rfl⟩
      · rw [hset, hb]
        rfl
      · rw [hset]
        rcases hk with ⟨hb, rfl⟩ | ⟨hb, rfl⟩ | ⟨hb, rfl⟩ <;> (rw [hb]; rfl)
      · rw [hset, injectKind_of_gt hb]
  · refine exec_command rfl rfl ho (by decide) (u := commandFinished s 11 .badArg) ?_ rfl
    exact commandSetFeeder_refused (s := commandWaits s 11 .none) h
  · refine exec_command rfl rfl ho (by decide) ?_ rfl
    exact (commandSetFeeder_named (s := commandWaits s 11 .none) ha hb).trans (if_neg (Nat.not_lt.2 hle))
  · refine exec_command rfl rfl ho (by decide) ?_ (congrArg Decoder.memSize (act_decoder f _))
    exact (commandSetFeeder_named (s := commandWaits s 11 .none) ha hb).trans (if_pos hlt)

/-! ## The notice sources (R157, R158, R164) -/

/-- The alert source of a bay and kind, by its number (R161). -/
theorem alertSlot_val (b : BayNo) (k : AlertKind) : (alertSlot b k).val = 4 * b.val + k.index.val := by
  simp only [alertSlot]
  omega

theorem orderPends_new {q : Sources} {b : BayNo} (h : ∀ x ∈ q.orders, x.1 ≠ b) (t : Time) :
    q.orderPends b t = { q with orders := q.orders ++ [(b, t)] } := by
  have hany : q.orders.any (fun e => e.1 == b) = false := by
    rw [List.any_eq_false]
    exact fun x hx => by simpa using h x hx
  simp only [Sources.orderPends, hany, Bool.false_eq_true, if_false]

theorem map_of_ne {b : BayNo} {l : List (BayNo × Time)} (h : ∀ x ∈ l, x.1 ≠ b) (t : Time) :
    l.map (fun e => if e.1 == b then (b, t) else e) = l := by
  conv_rhs => rw [← List.map_id l]
  exact List.map_congr_left fun x hx => by simp [h x hx]

theorem filter_of_ne {b : BayNo} {l : List (BayNo × Time)} (h : ∀ x ∈ l, x.1 ≠ b) : l.filter (fun e => e.1 != b) = l := by
  rw [List.filter_eq_self]
  exact fun x hx => by simpa using h x hx

theorem orderPends_listed {q : Sources} {b : BayNo} {t : Time} {before after : List (BayNo × Time)}
    (h : q.orders = before ++ (b, t) :: after) (hne : ∀ x ∈ before ++ after, x.1 ≠ b) (now : Time) :
    q.orderPends b now = { q with orders := before ++ (b, now) :: after } := by
  have hb : ∀ x ∈ before, x.1 ≠ b := fun x hx => hne x (List.mem_append_left _ hx)
  have ha : ∀ x ∈ after, x.1 ≠ b := fun x hx => hne x (List.mem_append_right _ hx)
  have hany : q.orders.any (fun e => e.1 == b) = true := by simp [h]
  simp only [Sources.orderPends, hany, if_true]
  rw [h, List.map_append, List.map_cons, map_of_ne hb, map_of_ne ha]
  simp

theorem orderLeaves_listed {q : Sources} {b : BayNo} {t : Time} {before after : List (BayNo × Time)}
    (h : q.orders = before ++ (b, t) :: after) (hne : ∀ x ∈ before ++ after, x.1 ≠ b) :
    q.orderLeaves b = { q with orders := before ++ after } := by
  have hb : ∀ x ∈ before, x.1 ≠ b := fun x hx => hne x (List.mem_append_left _ hx)
  have ha : ∀ x ∈ after, x.1 ≠ b := fun x hx => hne x (List.mem_append_right _ hx)
  simp only [Sources.orderLeaves]
  rw [h, List.filter_append, List.filter_cons, filter_of_ne hb, filter_of_ne ha]
  simp

theorem withdrawBay_alerts (q : Sources) (b : BayNo) (i : Fin 640) :
    (q.withdrawBay b).alerts[i] = if i.val / 4 = b.val then none else q.alerts[i] := by
  have hslot : ∀ k, ((alertSlot b k).val = i.val) ↔ i.val = 4 * b.val + k.index.val := by
    intro k
    rw [alertSlot_val, eq_comm]
  simp only [Sources.withdrawBay, Sources.orderLeaves, Fin.getElem_fin, Vector.getElem_set, hslot]
  split_ifs <;> simp only [AlertKind.index] at * <;> omega

/-- Settles O20: the operations on the sources, each by the place it writes. -/
theorem sourcesKeepTheirRules : Obligations.SourcesKeepTheirRules := by
  unfold Obligations.SourcesKeepTheirRules
  refine ⟨fun q b k c i hi => ?_, fun q f c => ?_, fun q b now => ⟨fun h => ?_, fun before t after h hne => ?_⟩, fun q b => ?_⟩
  · have hslot : i = alertSlot b k := Fin.ext (by rw [hi, alertSlot_val]; cases k <;> rfl)
    subst hslot
    refine ⟨Vector.getElem_set_self _, fun j hj => ?_, rfl, rfl, rfl⟩
    exact Vector.getElem_set_ne (alertSlot b k).isLt j.isLt fun h => hj (Fin.ext h.symm)
  · refine ⟨Vector.getElem_set_self _, fun g hg => ?_, rfl, rfl, rfl⟩
    exact Vector.getElem_set_ne f.isLt g.isLt fun h => hg (Fin.ext h.symm)
  · refine ⟨orderPends_new h now, ?_⟩
    unfold Sources.orderLeaves
    rw [filter_of_ne h]
  · exact ⟨orderPends_listed h hne now, orderLeaves_listed h hne⟩
  · refine ⟨fun i => ⟨fun h => ?_, fun h => ?_⟩, rfl, rfl, rfl⟩
    · rw [withdrawBay_alerts, if_pos h]
    · rw [withdrawBay_alerts, if_neg h]

end Sys2Proof.Machine

/-! PROOFS. O21, O22: what the beginning of an update leaves, and bay commands that are refused, wait or have their turn. -/

namespace Sys2Proof.Machine

/-! ## What the beginning of an update leaves (R66) -/

theorem recordWords_length (b : BayNo) (e : BayEntry) : (e.recordWords b).length = 16 := rfl

theorem twoBursts_eq (s : State) (b : BayNo) (e : BayEntry) (full : Bool) :
    twoBursts s b e full =
      [⟨b, s.decoder.windows.recordWord b, (e.recordWords b).take 8, false⟩,
        ⟨b, s.decoder.windows.recordWord b + 8,
          if full then (e.recordWords b).drop 8 else ((e.recordWords b).drop 8).take 4, true⟩] := by
  cases full <;> rfl

/-- The sources after an update of bay `b` has told of its orders and raised its conditions (R157, R158). -/
def toldOf (b : BayNo) (w : Work) (s : State) : Sources := (raiseAll b w.conds (tellOrders b w.orders s)).sources

theorem commitCore_eq (b : BayNo) (w : Work) (full : Bool) (s : State) :
    commitCore b w full s = { updateBegun s b w.bay full with sources := toldOf b w s } := by
  have hwords : ({ w.bay with inFlight := true } : BayEntry).recordWords b = w.bay.recordWords b := rfl
  have hbay : (raiseAll b w.conds (tellOrders b w.orders (s.setBay b { w.bay with inFlight := true }))).bay b
      = { w.bay with inFlight := true } := setBay_bay_self s b _
  unfold commitCore queueRecord
  simp only [hbay, hwords, updateBegun, twoBursts_eq]
  rfl

/-- An update begins, and its reports are applied (R66, R110). -/
theorem commit_begun (b : BayNo) (w : Work) (full : Bool) (s : State) :
    commit b w full s = feederReports b w.reports { updateBegun s b w.bay full with sources := toldOf b w s } := by
  unfold commit
  rw [commitCore_eq]

theorem feederReports_nil (b : BayNo) (s : State) : feederReports b [] s = s := rfl

/-- An update that tells of no order and raises no condition leaves the sources. -/
theorem toldOf_nothing {w : Work} (ho : w.orders = []) (hc : w.conds = []) (b : BayNo) (s : State) :
    toldOf b w s = s.sources := by
  unfold toldOf
  rw [ho, hc]
  rfl

/-! ## Bay commands at once (R69) -/

theorem servedBay_val {w : Windows} {a : Nat} {b : BayNo} (ha : a = b.val) (hs : w.servesBay b.val = true) :
    servedBay w a = some b := by
  subst ha
  simp [servedBay, hs]

theorem servedBay_of_not {w : Windows} {a : Nat} (h : w.servesBay a = false) : servedBay w a = none := by
  simp [servedBay, h]

theorem bayCommand_pass {a : Word} {ok : Bool} {s : State} (h : s.decoder.mode = .pass) :
    bayCommand a ok s = s.finish .badState := if_pos h

theorem bayCommand_refused {a : Word} {ok : Bool} {s : State} (hm : s.decoder.mode ≠ .pass)
    (h : s.decoder.windows.servesBay a.toNat = false ∨ ok = false) : bayCommand a ok s = s.finish .badArg := by
  unfold bayCommand
  rw [if_neg hm]
  rcases h with h | h
  · rw [servedBay_of_not h]
  · split
    · rfl
    · rw [h]
      rfl

theorem bayCommand_offered {a : Word} {ok : Bool} {b : BayNo} {s : State} (hm : s.decoder.mode ≠ .pass)
    (ha : a.toNat = b.val) (hs : s.decoder.windows.servesBay b.val = true) (h : ok = true) :
    bayCommand a ok s = offerCommand b s := by
  unfold bayCommand
  rw [if_neg hm, servedBay_val ha hs, h]
  rfl

theorem runCommand_unknown {cmd : Command} {s : State} (h : 14 < cmd.code.toNat) : runCommand cmd s = s.finish .badArg := by
  unfold runCommand
  split
  case h_15 => rfl
  all_goals
    rename_i hcode
    rw [hcode] at h
    omega

theorem commandUnmapTag_pass {cmd : Command} {s : State} (h : s.decoder.mode = .pass) :
    commandUnmapTag cmd s = s.finish .badState := if_pos h

theorem commandUnmapTag_notFound {cmd : Command} {s : State} (hm : s.decoder.mode ≠ .pass)
    (h : ∀ t ∈ s.link.tagMap, t.radio.toNat ≠ cmd.a.toNat) : commandUnmapTag cmd s = s.finish .notFound := by
  have hnone : s.link.tagMap.find? (fun t => t.radio.toNat == cmd.a.toNat) = none := by
    rw [List.find?_eq_none]
    exact fun t ht => by simpa using h t ht
  simp only [commandUnmapTag, hm, if_false, hnone]

theorem commandUnmapTag_offered {cmd : Command} {s : State} {t : TagEntry} (hm : s.decoder.mode ≠ .pass)
    (h : s.link.tagMap.find? (fun t => t.radio.toNat == cmd.a.toNat) = some t) :
    commandUnmapTag cmd s = offerCommand t.bay s := by
  simp only [commandUnmapTag, hm, if_false, h]

/-- A row whose command finishes at once with a result. -/
theorem exec_finishes {c : Instr} {i : Initiator} {code : Word} {s : State} {r : Result}
    (hr : requestOf s c = some (setupWord s i 0 code)) (hc : c.wellFormed = true) (ho : Open s i) (h0 : code ≠ 0)
    (hrun : runCommand (taken s.mailbox code) (commandWaits s code .none) = (commandWaits s code .none).finish r) :
    exec c s = .next (commandStep (commandFinished s code r) i code) :=
  exec_command hr hc ho h0 hrun rfl

theorem knownCode_of_gt {code : Word} (h : 14 < code.toNat) : knownCode code = false := by
  simp only [knownCode, Bool.and_eq_false_iff, decide_eq_false_iff_not]
  exact .inr (Nat.not_le.2 h)

/-- Settles O21: each row finishes in its command, before any bay is asked. -/
theorem commandsRefusedAtOnce : Obligations.CommandsRefusedAtOnce := by
  unfold Obligations.CommandsRefusedAtOnce
  intro i s ho
  refine ⟨fun code h0 h => ?_, fun hm => ⟨?_, ?_, ?_, ?_, ?_, ?_⟩, fun hm => ⟨fun h => ?_, fun h => ?_, fun h => ?_, fun h => ?_,
    fun h => ?_, fun h => ?_⟩⟩
  · have hwell : (Instr.unknownCommand i code).wellFormed = true := by
      simp only [Instr.wellFormed, knownCode_of_gt h, Bool.not_false, Bool.and_true]
      exact decide_eq_true h0
    exact exec_finishes rfl hwell ho h0 (runCommand_unknown h)
  · exact exec_finishes rfl rfl ho (by decide) (bayCommand_pass hm)
  · exact exec_finishes rfl rfl ho (by decide) (commandUnmapTag_pass hm)
  · exact exec_finishes rfl rfl ho (by decide) (bayCommand_pass hm)
  · exact exec_finishes rfl rfl ho (by decide) (bayCommand_pass hm)
  · exact exec_finishes rfl rfl ho (by decide) (bayCommand_pass hm)
  · exact exec_finishes rfl rfl ho (by decide) (bayCommand_pass hm)
  · refine exec_finishes rfl rfl ho (by decide) (bayCommand_refused hm ?_)
    rcases h with h | h | h
    · exact .inr (by rw [Bool.and_eq_false_iff]; exact .inl h)
    · exact .inl h
    · exact .inr (by rw [Bool.and_eq_false_iff]; exact .inr (decide_eq_false (Nat.not_le.2 h)))
  · exact exec_finishes rfl rfl ho (by decide) (commandUnmapTag_notFound hm h)
  · exact exec_finishes rfl rfl ho (by decide) (bayCommand_refused hm (h.imp_right fun h => decide_eq_false (Nat.not_le.2 h)))
  · exact exec_finishes rfl rfl ho (by decide) (bayCommand_refused hm (.inl h))
  · exact exec_finishes rfl rfl ho (by decide) (bayCommand_refused hm (.inl h))
  · exact exec_finishes rfl rfl ho (by decide) (bayCommand_refused hm (h.imp_right fun h => decide_eq_false (Nat.not_le.2 h)))

/-! ## Bay commands that reach their bay -/

/-- A bay command that is not refused at once is offered to its bay. -/
theorem BayCommand.offered {s : State} {i : Initiator} {c : Instr} {code : Word} {b : BayNo} (h : BayCommand s i c code b)
    (hm : s.decoder.mode ≠ .pass) :
    requestOf s c = some (setupWord s i 0 code) ∧ c.wellFormed = true ∧ code ≠ 0
      ∧ runCommand (taken s.mailbox code) (commandWaits s code .none) = offerCommand b (commandWaits s code .none) := by
  cases h with
  | mapTag b radio bay served kind =>
    refine ⟨rfl, rfl, by decide, bayCommand_offered hm bay served ?_⟩
    exact Bool.and_eq_true_iff.2 ⟨radio, decide_eq_true kind⟩
  | unmapTag t named => exact ⟨rfl, rfl, by decide, commandUnmapTag_offered hm named⟩
  | setLoading b bay served on => exact ⟨rfl, rfl, by decide, bayCommand_offered hm bay served (decide_eq_true on)⟩
  | forceDefrost b bay served => exact ⟨rfl, rfl, by decide, bayCommand_offered hm bay served rfl⟩
  | cancelDefrost b bay served => exact ⟨rfl, rfl, by decide, bayCommand_offered hm bay served rfl⟩
  | assignFeeder b bay served feeder =>
    exact ⟨rfl, rfl, by decide, bayCommand_offered hm bay served (decide_eq_true feeder)⟩

theorem offerCommand_locked {b : BayNo} {s : State} (h : s.locked b = true) :
    offerCommand b s = s.setProgress (.awaitsUnlock b) := by
  simp only [offerCommand, h, if_true]

theorem offerCommand_busy {b : BayNo} {s : State} (hl : s.locked b = false) (h : (s.bay b).inFlight = true) :
    offerCommand b s = (s.setWaiting b ((s.bay b).waiting ++ [.command])).setProgress (.awaitsTurn b) := by
  simp only [offerCommand, hl, h, Bool.false_eq_true, if_false, if_true]

theorem offerCommand_free {b : BayNo} {s : State} (hl : s.locked b = false) (h : (s.bay b).inFlight = false) :
    offerCommand b s = turnCommand b (s.setProgress (.awaitsTurn b)) := by
  simp only [offerCommand, hl, h, Bool.false_eq_true, if_false]
  rfl

/-- The step of a bay command whose bay is free: the command has its turn at once. -/
theorem exec_bayCommand {s : State} {i : Initiator} {c : Instr} {code : Word} {b : BayNo} {u : State} (ho : Open s i)
    (hm : s.decoder.mode ≠ .pass) (h : BayCommand s i c code b) (hf : FreeBay s b)
    (hturn : turnCommand b (commandWaits s code (.awaitsTurn b)) = u) :
    exec c s = .next (commandStep u i code) := by
  obtain ⟨hr, hc, h0, hrun⟩ := h.offered hm
  obtain ⟨hflight, -, -, -, hlock⟩ := hf
  refine exec_command hr hc ho h0 ?_ ?_
  · rw [hrun, offerCommand_free (s := commandWaits s code .none) hlock hflight]
    exact hturn
  · rw [← hturn]
    exact congrArg Decoder.memSize (turnCommand_moves b (commandWaits s code (.awaitsTurn b)) hflight hlock).decoder

/-! ## The turns of the bay commands, refused -/

theorem DefrostState.forcible_eq_false {d : DefrostState} (h : d ≠ .idle ∧ d ≠ .draining) : d.forcible = false := by
  obtain ⟨hi, hd⟩ := h
  cases d <;> simp [forcible] at hi hd ⊢

theorem DefrostState.cancellable_eq_false {d : DefrostState} (h : d = .idle ∨ d = .stopping ∨ d = .draining) :
    d.cancellable = false := by
  rcases h with h | h | h <;> subst h <;> rfl

theorem turnMapTag_refused {b : BayNo} {cmd : Command} {s : State}
    (h : (s.bay b).occupied = true ∨ ∃ t ∈ s.link.tagMap, t.radio = cmd.a.setWidth 10) :
    turnMapTag b cmd s = s.finish .badState := by
  have hc : ((s.link.entryOf (cmd.a.setWidth 10)).isSome || (s.bay b).occupied) = true := by
    rw [Bool.or_eq_true]
    rcases h with h | ⟨t, ht, hr⟩
    · exact .inr h
    · refine .inl (List.find?_isSome.2 ⟨t, ht, by simpa using hr⟩)
  simp only [turnMapTag, hc, if_true]

theorem turnUnmapTag_vacant {b : BayNo} {cmd : Command} {s : State} (h : (s.bay b).occupied = false) :
    turnUnmapTag b cmd s = s.finish .badState := by
  simp only [turnUnmapTag, h, Bool.not_false, if_true]

theorem turnSetLoading_vacant {b : BayNo} {cmd : Command} {s : State} (h : (s.bay b).occupied = false) :
    turnSetLoading b cmd s = s.finish .badState := by
  simp only [turnSetLoading, h, Bool.not_false, if_true]

theorem turnForceDefrost_refused {b : BayNo} {cmd : Command} {s : State}
    (h : (s.bay b).occupied = false ∨ (s.bay b).defrost.state.forcible = false) :
    turnForceDefrost b cmd s = s.finish .badState := by
  simp only [turnForceDefrost, (Bool.and_eq_false_iff).2 h, Bool.false_eq_true, if_false]

theorem turnCancelDefrost_refused {b : BayNo} {cmd : Command} {s : State}
    (h : (s.bay b).occupied = false ∨ (s.bay b).defrost.state.cancellable = false) :
    turnCancelDefrost b cmd s = s.finish .badState := by
  simp only [turnCancelDefrost, (Bool.and_eq_false_iff).2 h, Bool.false_eq_true, if_false]

theorem turnAssignFeeder_refused {b : BayNo} {cmd : Command} {s : State}
    (h : (s.bay b).occupied = false ∨ (s.bay b).defrost.state.forcible = false) :
    turnAssignFeeder b cmd s = s.finish .badState := by
  simp only [turnAssignFeeder, (Bool.and_eq_false_iff).2 h, Bool.false_eq_true, if_false]

/-- The bay command of a row, refused at its turn by the bay's state (R53, R69, R103, R104, R122). -/
def TurnRefused (s : State) (i : Initiator) (c : Instr) (b : BayNo) : Prop :=
  (c = .mapTag i ∧ ((s.bay b).occupied = true ∨ ∃ t ∈ s.link.tagMap, t.radio = s.mailbox.argA.setWidth 10))
    ∨ (c ≠ .mapTag i ∧ (s.bay b).occupied = false)
    ∨ ((c = .forceDefrost i ∨ c = .assignFeeder i) ∧ (s.bay b).defrost.state ≠ .idle
        ∧ (s.bay b).defrost.state ≠ .draining)
    ∨ (c = .cancelDefrost i
        ∧ ((s.bay b).defrost.state = .idle ∨ (s.bay b).defrost.state = .stopping
          ∨ (s.bay b).defrost.state = .draining))

theorem turnCommand_refused {s : State} {i : Initiator} {c : Instr} {code : Word} {b : BayNo} (h : BayCommand s i c code b)
    (hr : TurnRefused s i c b) :
    turnCommand b (commandWaits s code (.awaitsTurn b)) = commandFinished s code .badState := by
  have hforce : (c = .forceDefrost i ∨ c = .assignFeeder i) →
      (s.bay b).occupied = false ∨ (s.bay b).defrost.state.forcible = false := by
    intro hc
    rcases hr with ⟨rfl, -⟩ | ⟨-, h⟩ | ⟨-, h⟩ | ⟨rfl, -⟩
    · simp at hc
    · exact .inl h
    · exact .inr (DefrostState.forcible_eq_false h)
    · simp at hc
  cases h with
  | mapTag b radio bay served kind =>
    refine turnMapTag_refused (s := commandWaits s 6 (.awaitsTurn b)) ?_
    rcases hr with ⟨-, h⟩ | ⟨h, -⟩ | ⟨h, -⟩ | ⟨h, -⟩
    · exact h
    · exact absurd rfl h
    · simp at h
    · simp at h
  | unmapTag t named =>
    refine turnUnmapTag_vacant (s := commandWaits s 7 (.awaitsTurn t.bay)) ?_
    rcases hr with ⟨h, -⟩ | ⟨-, h⟩ | ⟨h, -⟩ | ⟨h, -⟩
    · simp at h
    · exact h
    · simp at h
    · simp at h
  | setLoading b bay served on =>
    refine turnSetLoading_vacant (s := commandWaits s 8 (.awaitsTurn b)) ?_
    rcases hr with ⟨h, -⟩ | ⟨-, h⟩ | ⟨h, -⟩ | ⟨h, -⟩
    · simp at h
    · exact h
    · simp at h
    · simp at h
  | forceDefrost b bay served =>
    exact turnForceDefrost_refused (cmd := taken s.mailbox 9) (s := commandWaits s 9 (.awaitsTurn b)) (hforce (.inl rfl))
  | cancelDefrost b bay served =>
    refine turnCancelDefrost_refused (cmd := taken s.mailbox 10) (s := commandWaits s 10 (.awaitsTurn b)) ?_
    rcases hr with ⟨h, -⟩ | ⟨-, h⟩ | ⟨h, -⟩ | ⟨-, h⟩
    · simp at h
    · exact .inl h
    · simp at h
    · exact .inr (DefrostState.cancellable_eq_false h)
  | assignFeeder b bay served feeder =>
    exact turnAssignFeeder_refused (cmd := taken s.mailbox 12) (s := commandWaits s 12 (.awaitsTurn b)) (hforce (.inr rfl))

/-- Settles O22: the command is offered to its bay, and at its turn there refused. -/
theorem bayCommandsWaitOrAreRefused : Obligations.BayCommandsWaitOrAreRefused := by
  unfold Obligations.BayCommandsWaitOrAreRefused
  refine ⟨fun c i code b s ho hm h => ?_, fun c i code b s ho hm h hf hr => ?_⟩
  · obtain ⟨hreq, hc, h0, hrun⟩ := h.offered hm
    refine ⟨fun hl => exec_command hreq hc ho h0 ?_ rfl, fun hl hf => exec_command hreq hc ho h0 ?_ rfl⟩
    · rw [hrun, offerCommand_locked (s := commandWaits s code .none) hl]
      rfl
    · rw [hrun, offerCommand_busy (s := commandWaits s code .none) hl hf]
      rfl
  · exact exec_bayCommand ho hm h hf (turnCommand_refused h hr)

end Sys2Proof.Machine

/-! PROOFS. What each change of a bay update leaves, as an equation per case (R81-R84, R89): leaving and entering a defrost
state, giving up a grant, and routing the power. -/

namespace Sys2Proof.Machine

/-! ## Stale expiries (R68; log 23) -/

theorem BayEvent.markStale_markStale (t : BayTimer) (ev : BayEvent) : (ev.markStale t).markStale t = ev.markStale t := by
  cases ev with
  | expiry u stale => simp only [markStale, Bool.or_assoc, Bool.or_self]
  | _ => rfl

theorem BayEvent.markStale_comm (t u : BayTimer) (ev : BayEvent) :
    (ev.markStale t).markStale u = (ev.markStale u).markStale t := by
  cases ev with
  | expiry v stale => simp only [markStale, Bool.or_assoc, Bool.or_comm (v == t)]
  | _ => rfl

@[simp] theorem BayEntry.markStale_markStale (e : BayEntry) (t : BayTimer) : (e.markStale t).markStale t = e.markStale t := by
  unfold markStale
  simp only [List.map_map]
  congr 1 <;> exact List.map_congr_left fun ev _ => ev.markStale_markStale t

theorem BayEntry.markStale_comm (e : BayEntry) (t u : BayTimer) :
    (e.markStale t).markStale u = (e.markStale u).markStale t := by
  unfold markStale
  simp only [List.map_map]
  congr 1 <;> exact List.map_congr_left fun ev _ => ev.markStale_comm t u

theorem BayEntry.markStale_of_nothing {e : BayEntry} (hw : e.waiting = []) (hh : e.held = []) (t : BayTimer) :
    e.markStale t = e := by
  cases e
  simp_all [markStale]

/-! ## Orders withdrawn (R84) -/

/-- What is told when a START still pending is withdrawn (R84). -/
def withdrawTells (d : DefrostRecord) : List OrderTell :=
  match d.pending with
  | some ⟨.start, _⟩ => [.withdrawn]
  | _ => []

theorem startPending_iff (d : DefrostRecord) : d.startPending = true ↔ ∃ f, d.pending = some ⟨.start, f⟩ := by
  unfold DefrostRecord.startPending
  cases hp : d.pending with
  | none => simp
  | some o =>
    obtain ⟨k, f⟩ := o
    simp

theorem startWithdrawn_of_start {d : DefrostRecord} {f : Option FeederNo} (h : d.pending = some ⟨.start, f⟩) :
    startWithdrawn d = none := by simp only [startWithdrawn, h]

theorem withdrawTells_of_start {d : DefrostRecord} {f : Option FeederNo} (h : d.pending = some ⟨.start, f⟩) :
    withdrawTells d = [.withdrawn] := by simp only [withdrawTells, h]

theorem startWithdrawn_of_not {d : DefrostRecord} (h : ∀ f, d.pending ≠ some ⟨.start, f⟩) : startWithdrawn d = d.pending := by
  unfold startWithdrawn
  split
  · rename_i f hp
    exact absurd hp (h f)
  · rfl

theorem withdrawTells_of_not {d : DefrostRecord} (h : ∀ f, d.pending ≠ some ⟨.start, f⟩) : withdrawTells d = [] := by
  unfold withdrawTells
  split
  · rename_i f hp
    exact absurd hp (h f)
  · rfl

theorem withdrawStart_eq (w : Work) :
    w.withdrawStart =
      ⟨{ w.bay with defrost := { w.bay.defrost with pending := startWithdrawn w.bay.defrost } }, w.reports,
        w.orders ++ withdrawTells w.bay.defrost, w.conds⟩ := by
  unfold Work.withdrawStart
  split
  · rename_i h
    obtain ⟨f, hf⟩ := (startPending_iff _).1 h
    rw [startWithdrawn_of_start hf, withdrawTells_of_start hf]
    rfl
  · rename_i h
    rw [startPending_iff, not_exists] at h
    rw [startWithdrawn_of_not h, withdrawTells_of_not h, List.append_nil]

theorem release_eq (w : Work) :
    w.release =
      ⟨{ w.bay with
          defrost := { w.bay.defrost with grantFeeder := none, pending := startWithdrawn w.bay.defrost } },
        w.reports ++ releaseReport w.bay.defrost, w.orders ++ withdrawTells w.bay.defrost, w.conds⟩ := by
  unfold Work.release
  simp only [withdrawStart_eq]
  unfold releaseReport
  cases hg : w.bay.defrost.grantFeeder with
  | none => simp only [Option.map_none, Option.toList_none, List.append_nil] <;> rfl
  | some f => rfl

/-! ## Leaving a state (R81) -/

theorem leave_due {w : Work} (h : w.bay.defrost.state = .due) (new : DefrostState) :
    w.leave new =
      ⟨{ w.bay with defrost := { w.bay.defrost with reason := .queued } },
        w.reports ++ (if w.bay.defrost.reason = .queued then [.leaveQueue w.bay.feeder] else []), w.orders, w.conds⟩ := by
  have hleave : w.leave new =
      (if w.bay.defrost.reason = .queued then w.report (.leaveQueue w.bay.feeder) else w).defrost
        { (if w.bay.defrost.reason = .queued then w.report (.leaveQueue w.bay.feeder) else w).bay.defrost with
          reason := .queued } := by
    simp only [Work.leave, h]
  rw [hleave]
  by_cases hr : w.bay.defrost.reason = .queued
  · rw [if_pos hr, if_pos hr]
    rfl
  · rw [if_neg hr, if_neg hr, List.append_nil]
    rfl

theorem leave_granted {w : Work} (h : w.bay.defrost.state.granted = true) (new : DefrostState) :
    w.leave new = if new.granted then w else w.release := by
  unfold Work.leave
  cases hs : w.bay.defrost.state <;> simp only [hs, DefrostState.granted, Bool.false_eq_true] at h ⊢

theorem leave_self {w : Work} (h : w.bay.defrost.state = .self) (new : DefrostState) :
    w.leave new = w.report (.selfLeave w.bay.feeder) := by
  simp only [Work.leave, h]

theorem leave_resting {w : Work} (h : w.bay.defrost.state = .idle ∨ w.bay.defrost.state = .draining)
    (new : DefrostState) : w.leave new = w := by
  rcases h with h | h <;> simp only [Work.leave, h]

/-! ## Entering a state (R81) -/

theorem enter_idle (p : Params) (w : Work) :
    w.enter p .idle =
      ⟨{ w.bay.markStale .defrost with
          defrost :=
            { w.bay.defrost with state := .idle, attempts := 0, iceCount := 0, grantFeeder := none, timer := .stopped } },
        w.reports, w.orders, w.conds⟩ := rfl

theorem enter_due (p : Params) (w : Work) :
    w.enter p .due =
      ⟨{ w.bay.markStale .defrost with defrost := { w.bay.defrost with state := .due, timer := .stopped } },
        w.reports, w.orders, w.conds⟩ := rfl

theorem enter_ordered (p : Params) (w : Work) :
    w.enter p .ordered =
      ⟨{ w.bay.markStale .defrost with
          defrost :=
            { w.bay.defrost with
              state := .ordered, timer := .running p.startWindow p.startWindow,
              orderNumber := nextOrderNumber w.bay.defrost.orderNumber, lastKind := some .start,
              pending := some ⟨.start, w.bay.defrost.grantFeeder⟩ } },
        w.reports, w.orders ++ [.pends], w.conds⟩ := rfl

theorem enter_running (p : Params) (w : Work) :
    w.enter p .running =
      ⟨{ w.bay.markStale .defrost with
          defrost := { w.bay.defrost with state := .running, timer := .running p.maxDefrost p.maxDefrost } },
        w.reports, w.orders, w.conds⟩ := rfl

theorem enter_stopping (p : Params) (w : Work) :
    w.enter p .stopping =
      ⟨{ w.bay.markStale .defrost with
          defrost :=
            { w.bay.defrost with
              state := .stopping, timer := .running p.stopWindow p.stopWindow,
              orderNumber := nextOrderNumber w.bay.defrost.orderNumber, lastKind := some .stop,
              pending := some ⟨.stop, w.bay.defrost.grantFeeder⟩ } },
        w.reports, w.orders ++ [.pends], w.conds⟩ := rfl

theorem enter_draining (p : Params) (w : Work) :
    w.enter p .draining =
      ⟨{ w.bay.markStale .defrost with
          defrost := { w.bay.defrost with state := .draining, timer := .running p.drainTime p.drainTime } },
        w.reports, w.orders, w.conds⟩ := rfl

theorem enter_self (p : Params) (w : Work) :
    w.enter p .self =
      ⟨{ w.bay.markStale .defrost with defrost := { w.bay.defrost with state := .self, timer := .stopped } },
        w.reports ++ [.selfJoin w.bay.feeder], w.orders, w.conds⟩ := rfl

theorem moveTo_eq {p : Params} {new : DefrostState} (h : new ≠ .draining ∨ p.drainTime ≠ 0) (w : Work) :
    w.moveTo p new = (w.leave new).enter p new := by
  have hc : ¬ (new = .draining ∧ p.drainTime = 0) := fun ⟨hd, hz⟩ => h.elim (fun h => h hd) fun h => h hz
  simp only [Work.moveTo, hc, if_false]

theorem moveTo_ne {new : DefrostState} (h : new ≠ .draining) (p : Params) (w : Work) :
    w.moveTo p new = (w.leave new).enter p new := moveTo_eq (.inl h) w

/-- With drain time 0 DRAINING becomes IDLE (R81). -/
theorem moveTo_draining_zero {p : Params} (h : p.drainTime = 0) (w : Work) :
    w.moveTo p .draining = (w.leave .idle).enter p .idle := by
  simp only [Work.moveTo, h, and_self, if_true]

/-! ## Routing the power (R89) -/

theorem engineReady_iff (e : BayEntry) : e.engineReady = true ↔ e.kind = .diesel ∧ e.fuel.state = .normal := by
  simp [BayEntry.engineReady]

theorem routePower_shore {c : Ctx} {w : Work} (hr : w.bay.readingHeld = true) (hs : w.bay.reading.shorePower = true) :
    w.routePower c =
      ⟨{ w.bay with defrost := { w.bay.defrost with reason := .queued } }, w.reports ++ [.joinQueue w.bay.feeder c.now],
        w.orders, w.conds⟩ := by
  have hc : (w.bay.readingHeld && w.bay.reading.shorePower) = true := by rw [hr, hs]; rfl
  exact (if_pos hc).trans rfl

theorem routePower_engine {c : Ctx} {w : Work} (hr : w.bay.readingHeld = true) (hs : w.bay.reading.shorePower = false)
    (he : w.bay.engineReady = true) :
    w.routePower c =
      Work.enter c.params .ordered (w.defrost { w.bay.defrost with reason := .queued, grantFeeder := none }) := by
  simp only [Work.routePower, hr, hs, he, Bool.and_self, Bool.and_false, Bool.false_eq_true, if_false, if_true]

theorem routePower_held {c : Ctx} {w : Work}
    (h : w.bay.readingHeld = false ∨ (w.bay.reading.shorePower = false ∧ w.bay.engineReady = false)) :
    w.routePower c = w.defrost { w.bay.defrost with reason := .held } := by
  have hs : (w.bay.readingHeld && w.bay.reading.shorePower) = false := by
    rw [Bool.and_eq_false_iff]
    exact h.imp_right And.left
  have he : (w.bay.readingHeld && w.bay.engineReady) = false := by
    rw [Bool.and_eq_false_iff]
    exact h.imp_right And.right
  simp only [Work.routePower, hs, he, Bool.false_eq_true, if_false]

/-! ## What the Notice Writer is told (R157, R158) -/

/-- The order tells of an update, in turn. -/
def ordersTold (b : BayNo) (now : Time) : List OrderTell → Sources → Sources
  | [], q => q
  | .pends :: ts, q => ordersTold b now ts (q.orderPends b now)
  | .withdrawn :: ts, q => ordersTold b now ts (q.orderLeaves b)

/-- The conditions of an update, in turn. -/
def condsRaised (b : BayNo) : List (AlertKind × Condition) → Sources → Sources
  | [], q => q
  | c :: cs, q => condsRaised b cs (q.raiseAlert b c.1 c.2)

theorem tellOrders_sources (b : BayNo) (ts : List OrderTell) (s : State) :
    (tellOrders b ts s).sources = ordersTold b s.clock.time ts s.sources := by
  unfold tellOrders
  simp only []
  generalize s.sources = q
  induction ts generalizing q with
  | nil => rfl
  | cons t ts ih =>
    cases t
    · exact ih _
    · exact ih _

theorem raiseAll_sources (b : BayNo) (cs : List (AlertKind × Condition)) (s : State) :
    (raiseAll b cs s).sources = condsRaised b cs s.sources := by
  unfold raiseAll
  simp only []
  generalize s.sources = q
  induction cs generalizing q with
  | nil => rfl
  | cons c cs ih => exact ih _

theorem toldOf_eq (b : BayNo) (w : Work) (s : State) :
    toldOf b w s = condsRaised b w.conds (ordersTold b s.clock.time w.orders s.sources) := by
  unfold toldOf
  rw [raiseAll_sources, tellOrders_sources]

theorem ordersTold_append (b : BayNo) (now : Time) (ts us : List OrderTell) (q : Sources) :
    ordersTold b now (ts ++ us) q = ordersTold b now us (ordersTold b now ts q) := by
  induction ts generalizing q with
  | nil => rfl
  | cons t ts ih =>
    cases t
    · exact ih _
    · exact ih _

theorem ordersTold_withdrawTells (b : BayNo) (now : Time) (d : DefrostRecord) (q : Sources) :
    ordersTold b now (withdrawTells d) q = withStartWithdrawn q b d := by
  unfold withdrawTells withStartWithdrawn
  cases d.pending with
  | none => rfl
  | some o =>
    obtain ⟨k, f⟩ := o
    cases k <;> rfl

/-! ## A turn of the power routing as `Routed` has it -/

theorem Routed.routePower {c : Ctx} {b : BayNo} {w : Work} {q q' : Sources} {e : BayEntry} {reports : List Report}
    (h : Routed c.params.startWindow c.now b w.bay q e reports q') (hm : w.bay.markStale .defrost = w.bay) :
    ∃ tells, w.routePower c = ⟨e, w.reports ++ reports, w.orders ++ tells, w.conds⟩ ∧ ordersTold b c.now tells q = q' := by
  cases h with
  | queued held shore => exact ⟨[], by rw [routePower_shore held shore, List.append_nil], rfl⟩
  | engine held shore diesel normal =>
    refine ⟨[.pends], ?_, rfl⟩
    rw [routePower_engine held shore ((engineReady_iff _).2 ⟨diesel, normal⟩), enter_ordered]
    have hm' : (w.defrost { w.bay.defrost with reason := .queued, grantFeeder := none }).bay.markStale .defrost
        = { w.bay with defrost := { w.bay.defrost with reason := .queued, grantFeeder := none } } := by
      show { w.bay.markStale .defrost with
        defrost := { w.bay.defrost with reason := .queued, grantFeeder := none } } = _
      rw [hm]
    rw [hm', List.append_nil]
    rfl
  | held off =>
    refine ⟨[], ?_, rfl⟩
    have hoff : w.bay.readingHeld = false ∨ (w.bay.reading.shorePower = false ∧ w.bay.engineReady = false) := by
      refine off.imp_right (And.imp_right fun h => ?_)
      rw [← Bool.not_eq_true, engineReady_iff, not_and_or]
      exact h
    rw [routePower_held hoff, List.append_nil, List.append_nil]
    rfl

end Sys2Proof.Machine

/-! PROOFS. What the bay commands leave at their turn (R76, R77, R103, R104, R122, R146-R149). -/

namespace Sys2Proof.Machine

/-! ## Beginning the update of a command -/

theorem beginCommand_begun (b : BayNo) (w : Work) (full : Bool) (s : State) :
    beginCommand b w full s =
      feederReports b w.reports
        { updateBegun (s.setProgress (.updating b)) b w.bay full with sources := toldOf b w s } := commit_begun b w full _

/-- The entry with every expiry that waits or is held stale (R77; log 23). -/
def BayEntry.allStale (e : BayEntry) : BayEntry := ((e.markStale .silence).markStale .defrost).markStale .door

theorem BayEntry.allStale_silence (e : BayEntry) : e.allStale.markStale .silence = e.allStale := by
  unfold allStale
  rw [markStale_comm _ .door .silence, markStale_comm _ .defrost .silence, markStale_markStale]

theorem BayEntry.allStale_lists (e : BayEntry) :
    e.allStale.waiting.map (BayEvent.markStale .silence) = e.allStale.waiting
      ∧ e.allStale.held.map (BayEvent.markStale .silence) = e.allStale.held :=
  ⟨congrArg BayEntry.waiting e.allStale_silence, congrArg BayEntry.held e.allStale_silence⟩

/-! ## MAP_TAG (R54, R76) -/

/-- The entry that a MAP_TAG of radio `a` and kind `k` leaves (R76). -/
def BayEntry.mapped (e : BayEntry) (a : RadioAddr) (k : UnitKind) (now : Time) (silence : Nat) : BayEntry :=
  { e.allStale with
    occupied := true, radio := some a, kind := k, occStart := now, link := some .hunt, loading := false, silent := false,
    readingHeld := false, reading := .zero,
    defrost := ⟨.idle, .queued, 0, 0, .stopped, none, e.defrost.orderNumber, none, none, none⟩,
    fuel := ⟨.normal, none⟩, door := ⟨.closed, 0, 0, .stopped⟩, silence := .running silence silence }

theorem stopTimers_eq (e : BayEntry) :
    e.stopTimers =
      { e.allStale with
        silence := .stopped, defrost := { e.defrost with timer := .stopped }, door := { e.door with timer := .stopped } } := by
  cases e
  rfl

theorem mapTag_eq (c : Ctx) (a : RadioAddr) (k : UnitKind) (w : Work) :
    w.mapTag c a k = ⟨w.bay.mapped a k c.now c.params.silenceLimit, w.reports, w.orders, w.conds⟩ := by
  obtain ⟨hw, hh⟩ := w.bay.allStale_lists
  simp only [Work.mapTag, stopTimers_eq, Work.setTimer, BayEntry.setTimer, BayEntry.putTimer, BayEntry.markStale, hw, hh,
    BayEntry.mapped]
  rfl

theorem linkMap_of_unlisted {a : RadioAddr} {s : State} (h : s.link.listedAt a = none) (b : BayNo) :
    linkMap a b s = { s with link := { s.link with tagMap := s.link.tagMap ++ [⟨a, b, .hunt, 0, 0, 0⟩] } } := by
  simp only [linkMap, h]

theorem linkMap_of_listed {a : RadioAddr} {s : State} {k : Fin 16} (h : s.link.listedAt a = some k) (b : BayNo) :
    linkMap a b s =
      { s with
        link :=
          { s.link with tagMap := s.link.tagMap ++ [⟨a, b, .hunt, 0, 0, 0⟩], unknown := s.link.unknown.set k none }
        sources := { s.sources with tags := s.sources.tags.set k false } } := by
  simp only [linkMap, h]

/-- The Unknown Tag List and the TAG sources with the radio's place emptied (R54, R165). -/
structure Unlisted (s : State) (a : RadioAddr) (unknown : Vector (Option UnknownEntry) 16) (tags : Vector Bool 16) :
    Prop where
  absent : s.link.listedAt a = none → unknown = s.link.unknown ∧ tags = s.sources.tags
  listed : ∀ p, s.link.listedAt a = some p → unknown = s.link.unknown.set p none ∧ tags = s.sources.tags.set p false

theorem Unlisted.linkMap {s : State} {a : RadioAddr} {unknown : Vector (Option UnknownEntry) 16} {tags : Vector Bool 16}
    (h : Unlisted s a unknown tags) (b : BayNo) :
    linkMap a b s =
      { s with
        link := { s.link with tagMap := s.link.tagMap ++ [⟨a, b, .hunt, 0, 0, 0⟩], unknown := unknown }
        sources := { s.sources with tags := tags } } := by
  cases hl : s.link.listedAt a with
  | none =>
    obtain ⟨rfl, rfl⟩ := h.absent hl
    exact linkMap_of_unlisted hl b
  | some p =>
    obtain ⟨rfl, rfl⟩ := h.listed p hl
    exact linkMap_of_listed hl b

theorem turnMapTag_taken {b : BayNo} {cmd : Command} {s : State} {unknown : Vector (Option UnknownEntry) 16}
    {tags : Vector Bool 16} (ho : (s.bay b).occupied = false) (hn : ∀ t ∈ s.link.tagMap, t.radio ≠ cmd.a.setWidth 10)
    (hu : Unlisted s (cmd.a.setWidth 10) unknown tags) :
    turnMapTag b cmd s =
      { updateBegun (s.setProgress (.updating b)) b
          ((copied s b).mapped (cmd.a.setWidth 10) (if cmd.c = 0 then .diesel else .electric) s.clock.time
            s.params.silenceLimit) true with
        link := { s.link with tagMap := s.link.tagMap ++ [⟨cmd.a.setWidth 10, b, .hunt, 0, 0, 0⟩], unknown := unknown }
        sources := { s.sources with tags := tags } } := by
  have hc : ((s.link.entryOf (cmd.a.setWidth 10)).isSome || (s.bay b).occupied) = false := by
    rw [ho, Bool.or_false, Option.isSome_eq_false_iff, Option.isNone_iff_eq_none]
    exact List.find?_eq_none.2 fun t ht => by simpa using hn t ht
  have hturn : turnMapTag b cmd s =
      beginCommand b
        ((startWork b (linkMap (cmd.a.setWidth 10) b s)).mapTag ((linkMap (cmd.a.setWidth 10) b s).ctx b)
          (cmd.a.setWidth 10) (if cmd.c = 0 then .diesel else .electric)) true (linkMap (cmd.a.setWidth 10) b s) := by
    simp only [turnMapTag, hc, Bool.false_eq_true, if_false]
  rw [hturn, hu.linkMap, mapTag_eq, beginCommand_begun]
  rfl

/-! ## UNMAP_TAG (R55, R77, R79) -/

/-- The reports of a bay that gives up its grant, queue place or self-started count (R79). -/
def BayEntry.givenUp (e : BayEntry) : List Report :=
  match e.defrost.state with
  | .ordered | .running | .stopping => releaseReport e.defrost
  | .due => if e.defrost.reason = .queued then [.leaveQueue e.feeder] else []
  | .self => [.selfLeave e.feeder]
  | .idle | .draining => []

/-- The record's history, which a bay that gives up its place keeps (R77). -/
def SameHistory (d d' : DefrostRecord) : Prop :=
  d'.lastEnd = d.lastEnd ∧ d'.orderNumber = d.orderNumber ∧ d'.lastKind = d.lastKind

theorem withdrawOrder_spec (w : Work) :
    ∃ d tells, w.withdrawOrder = ⟨{ w.bay with defrost := d }, w.reports, w.orders ++ tells, w.conds⟩
      ∧ SameHistory w.bay.defrost d ∧ ∀ t ∈ tells, t = OrderTell.withdrawn := by
  unfold Work.withdrawOrder
  split
  · exact ⟨_, [.withdrawn], rfl, ⟨rfl, rfl, rfl⟩, fun t ht => List.mem_singleton.1 ht⟩
  · exact ⟨w.bay.defrost, [], by rw [List.append_nil], ⟨rfl, rfl, rfl⟩, nofun⟩

theorem withdrawTells_withdrawn (d : DefrostRecord) : ∀ t ∈ withdrawTells d, t = OrderTell.withdrawn := by
  unfold withdrawTells
  split
  · exact fun t ht => List.mem_singleton.1 ht
  · nofun

theorem giveUp_eq (w : Work) :
    ∃ d tells, w.giveUp = ⟨{ w.bay with defrost := d }, w.reports ++ w.bay.givenUp, w.orders ++ tells, w.conds⟩
      ∧ SameHistory w.bay.defrost d ∧ ∀ t ∈ tells, t = OrderTell.withdrawn := by
  have hfirst : ∃ d tells,
      w.giveUp = Work.withdrawOrder ⟨{ w.bay with defrost := d }, w.reports ++ w.bay.givenUp, w.orders ++ tells, w.conds⟩
        ∧ SameHistory w.bay.defrost d ∧ ∀ t ∈ tells, t = OrderTell.withdrawn := by
    have hkept : (⟨w.bay, w.reports ++ [], w.orders ++ [], w.conds⟩ : Work) = w := by
      rw [List.append_nil, List.append_nil]
    have hrelease : ∃ d tells,
        w.release.withdrawOrder
            = Work.withdrawOrder ⟨{ w.bay with defrost := d }, w.reports ++ releaseReport w.bay.defrost, w.orders ++ tells, w.conds⟩
          ∧ SameHistory w.bay.defrost d ∧ ∀ t ∈ tells, t = OrderTell.withdrawn :=
      ⟨_, _, congrArg _ (release_eq w), ⟨rfl, rfl, rfl⟩, withdrawTells_withdrawn _⟩
    cases hs : w.bay.defrost.state with
    | ordered | running | stopping =>
      simp only [Work.giveUp, BayEntry.givenUp, hs]
      exact hrelease
    | due =>
      simp only [Work.giveUp, BayEntry.givenUp, hs]
      refine ⟨w.bay.defrost, [], congrArg _ ?_, ⟨rfl, rfl, rfl⟩, nofun⟩
      split
      · rw [List.append_nil]
        rfl
      · exact hkept.symm
    | self =>
      simp only [Work.giveUp, BayEntry.givenUp, hs]
      refine ⟨w.bay.defrost, [], congrArg _ ?_, ⟨rfl, rfl, rfl⟩, nofun⟩
      rw [List.append_nil]
      rfl
    | idle | draining =>
      simp only [Work.giveUp, BayEntry.givenUp, hs]
      exact ⟨w.bay.defrost, [], congrArg _ hkept.symm, ⟨rfl, rfl, rfl⟩, nofun⟩
  obtain ⟨d, tells, hg, ⟨hl, ho, hk⟩, ht⟩ := hfirst
  obtain ⟨d', tells', hw, ⟨hl', ho', hk'⟩, ht'⟩ :=
    withdrawOrder_spec ⟨{ w.bay with defrost := d }, w.reports ++ w.bay.givenUp, w.orders ++ tells, w.conds⟩
  refine ⟨d', tells ++ tells', ?_, ⟨hl'.trans hl, ho'.trans ho, hk'.trans hk⟩, fun t hmem => ?_⟩
  · rw [hg, hw, List.append_assoc]
  · exact (List.mem_append.1 hmem).elim (ht t) (ht' t)

/-- The entry that an UNMAP_TAG leaves (R77). -/
def BayEntry.unmapped (e : BayEntry) : BayEntry :=
  { e.allStale with
    occupied := false, radio := none, link := none, loading := false, silent := false,
    defrost := ⟨.idle, .queued, 0, 0, .stopped, e.defrost.lastEnd, e.defrost.orderNumber, e.defrost.lastKind, none, none⟩,
    fuel := { e.fuel with state := .normal }, door := { e.door with state := .closed, timer := .stopped },
    silence := .stopped }

theorem unmapTag_eq (w : Work) :
    ∃ tells, w.unmapTag = ⟨w.bay.unmapped, w.reports ++ w.bay.givenUp, w.orders ++ tells, w.conds⟩
      ∧ ∀ t ∈ tells, t = OrderTell.withdrawn := by
  obtain ⟨d, tells, hg, ⟨hl, ho, hk⟩, ht⟩ := giveUp_eq w
  refine ⟨tells, ?_, ht⟩
  unfold Work.unmapTag
  simp only [hg]
  unfold BayEntry.unmapped
  rw [← hl, ← ho, ← hk]
  rfl

theorem orderLeaves_orderLeaves (q : Sources) (b : BayNo) : (q.orderLeaves b).orderLeaves b = q.orderLeaves b := by
  simp [Sources.orderLeaves]

theorem ordersTold_withdrawn {tells : List OrderTell} (h : ∀ t ∈ tells, t = OrderTell.withdrawn) (b : BayNo) (now : Time)
    {q : Sources} (hq : q.orderLeaves b = q) : ordersTold b now tells q = q := by
  induction tells with
  | nil => rfl
  | cons t ts ih =>
    rw [h t List.mem_cons_self]
    show ordersTold b now ts (q.orderLeaves b) = q
    rw [hq]
    exact ih fun u hu => h u (List.mem_cons_of_mem _ hu)

theorem turnUnmapTag_taken {b : BayNo} {cmd : Command} {s : State} (ho : (s.bay b).occupied = true) :
    turnUnmapTag b cmd s =
      feederReports b (s.bay b).givenUp
        { updateBegun (s.setProgress (.updating b)) b (copied s b).unmapped true with
          link := { s.link with tagMap := s.link.tagMap.filter fun t => t.radio != cmd.a.setWidth 10 }
          sources := s.sources.withdrawBay b } := by
  have hturn : turnUnmapTag b cmd s =
      beginCommand b (startWork b (linkUnmap (cmd.a.setWidth 10) b s)).unmapTag true (linkUnmap (cmd.a.setWidth 10) b s) := by
    simp only [turnUnmapTag, ho, Bool.not_true, Bool.false_eq_true, if_false]
  obtain ⟨tells, hw, ht⟩ := unmapTag_eq (startWork b (linkUnmap (cmd.a.setWidth 10) b s))
  have htold : toldOf b (startWork b (linkUnmap (cmd.a.setWidth 10) b s)).unmapTag (linkUnmap (cmd.a.setWidth 10) b s)
      = s.sources.withdrawBay b := by
    rw [toldOf_eq, hw]
    exact ordersTold_withdrawn ht b _ (orderLeaves_orderLeaves _ b)
  rw [hturn, beginCommand_begun, htold, hw]
  rfl

/-! ## SET_LOADING (R147-R149) -/

theorem setLoading_same {c : Ctx} {on : Bool} {w : Work} (h : w.bay.loading = on) : w.setLoading c on = w := if_pos h

theorem setLoading_changed {c : Ctx} {on : Bool} {w : Work} (h : w.bay.loading ≠ on) :
    w.setLoading c on = Work.judgeLoading c ⟨{ w.bay with loading := on }, w.reports, w.orders, w.conds⟩ := if_neg h

theorem doorLimit_eq (e : BayEntry) :
    e.doorLimit = (if e.loading then e.settings.loadingDoorLimit else e.settings.doorLimit).toNat := by
  unfold BayEntry.doorLimit
  split <;> rfl

theorem judgeLoading_closed {c : Ctx} {w : Work} (h : w.bay.door.state = .closed) : w.judgeLoading c = w := by
  simp only [Work.judgeLoading, h]

/-- The door has been open for the new limit: it is OPEN_LONG (R148). -/
theorem judgeLoading_passed {c : Ctx} {w : Work} (h : w.bay.door.state = .isOpen)
    (hl : w.bay.doorLimit ≤ (c.now - w.bay.door.since).toNat) :
    w.judgeLoading c =
      ⟨{ w.bay.markStale .door with door := { w.bay.door with state := .openLong, timer := .stopped } }, w.reports, w.orders,
        w.conds
          ++ [(.door,
            ⟨.openLong, c.now, .radio (w.bay.radio.getD 0) w.bay.reading.seq, c.now - w.bay.door.since⟩)]⟩ := by
  have hjudge : w.judgeLoading c = w.toOpenLong c.now := by
    simp only [Work.judgeLoading, h]
    exact if_pos hl
  rw [hjudge]
  rfl

/-- The door has not been open for the new limit: its timer starts with the rest (R148, R149). -/
theorem judgeLoading_within {c : Ctx} {w : Work} (hl : (c.now - w.bay.door.since).toNat < w.bay.doorLimit)
    (h : w.bay.door.state = .isOpen ∨ (w.bay.door.state = .openLong ∧ w.bay.loading = true)) :
    w.judgeLoading c =
      ⟨{ w.bay.markStale .door with
          door :=
            { w.bay.door with
              state := .isOpen
              timer :=
                .running (w.bay.doorLimit - (c.now - w.bay.door.since).toNat)
                  (w.bay.doorLimit - (c.now - w.bay.door.since).toNat) } },
        w.reports, w.orders, w.conds⟩ := by
  rcases h with h | ⟨h, hon⟩
  · have hjudge : w.judgeLoading c =
        w.setTimer .door (.start (w.bay.doorLimit - (w.bay.openFor c.now).toNat)) := by
      simp only [Work.judgeLoading, h]
      exact if_neg (Nat.not_le.2 hl)
    rw [hjudge, ← h]
    rfl
  · have hjudge : w.judgeLoading c =
        (w.setDoor .isOpen).setTimer .door (.start (w.bay.doorLimit - (w.bay.openFor c.now).toNat)) := by
      simp only [Work.judgeLoading, h]
      exact if_pos (by rw [hon, Bool.true_and]; exact decide_eq_true hl)
    rw [hjudge]
    rfl

/-- An OPEN_LONG door stays, but that loading has begun and its limit has not run out (R149). -/
theorem judgeLoading_long {c : Ctx} {w : Work} (h : w.bay.door.state = .openLong)
    (hl : w.bay.loading = false ∨ w.bay.doorLimit ≤ (c.now - w.bay.door.since).toNat) : w.judgeLoading c = w := by
  simp only [Work.judgeLoading, h]
  refine if_neg ?_
  rw [Bool.not_eq_true, Bool.and_eq_false_iff, decide_eq_false_iff_not, Nat.not_lt]
  exact hl

section
variable {b : BayNo} {cmd : Command} {on : Bool} {s : State}

theorem turnSetLoading_taken (ho : (s.bay b).occupied = true) (hon : (cmd.b == 1) = on) :
    turnSetLoading b cmd s = beginCommand b ((startWork b s).setLoading (s.ctx b) on) false s := by
  simp only [turnSetLoading, ho, Bool.not_true, Bool.false_eq_true, if_false, hon]

/-- The limit that a loading flag `on` makes the door's (R138). -/
def BayEntry.limitFor (e : BayEntry) (on : Bool) : Nat :=
  (if on then e.settings.loadingDoorLimit else e.settings.doorLimit).toNat

/-- The seconds since the door opened. -/
def BayEntry.elapsedAt (e : BayEntry) (now : Time) : Nat := (now - e.door.since).toNat

theorem doorLimit_loading (e : BayEntry) (on : Bool) : ({ e with loading := on } : BayEntry).doorLimit = e.limitFor on :=
  doorLimit_eq _

/-- The flag is set, and the door record stays. -/
theorem turnSetLoading_only (ho : (s.bay b).occupied = true) (hon : (cmd.b == 1) = on)
    (h : (s.bay b).loading = on ∨ (s.bay b).door.state = .closed
      ∨ ((s.bay b).door.state = .openLong
        ∧ (on = false ∨ (s.bay b).limitFor on ≤ (s.bay b).elapsedAt s.clock.time))) :
    turnSetLoading b cmd s = updateBegun (s.setProgress (.updating b)) b { copied s b with loading := on } false := by
  have hwork : (startWork b s).setLoading (s.ctx b) on = ⟨{ copied s b with loading := on }, [], [], []⟩ := by
    by_cases heq : (s.bay b).loading = on
    · rw [setLoading_same (w := startWork b s) heq, ← heq]
      rfl
    · rw [setLoading_changed (w := startWork b s) heq]
      rcases h with h | h | ⟨h, hlong⟩
      · exact absurd h heq
      · exact judgeLoading_closed (w := ⟨{ copied s b with loading := on }, [], [], []⟩) h
      · refine judgeLoading_long (w := ⟨{ copied s b with loading := on }, [], [], []⟩) h (hlong.imp_right fun hle => ?_)
        show ({ copied s b with loading := on } : BayEntry).doorLimit ≤ _
        rw [doorLimit_loading]
        exact hle
  rw [turnSetLoading_taken ho hon, hwork, beginCommand_begun]
  rfl

/-- The flag changes, and the door has been open for its new limit. -/
theorem turnSetLoading_passed (ho : (s.bay b).occupied = true) (hon : (cmd.b == 1) = on) (hne : (s.bay b).loading ≠ on)
    (hopen : (s.bay b).door.state = .isOpen) (hl : (s.bay b).limitFor on ≤ (s.bay b).elapsedAt s.clock.time) :
    turnSetLoading b cmd s =
      { updateBegun (s.setProgress (.updating b)) b
          { (copied s b).markStale .door with
            loading := on, door := { (s.bay b).door with state := .openLong, timer := .stopped } } false with
        sources :=
          s.sources.raiseAlert b .door
            ⟨.openLong, s.clock.time, .radio ((s.bay b).radio.getD 0) (s.bay b).reading.seq,
              s.clock.time - (s.bay b).door.since⟩ } := by
  have hwork : (startWork b s).setLoading (s.ctx b) on = _ :=
    (setLoading_changed (w := startWork b s) hne).trans
      (judgeLoading_passed (c := s.ctx b) (w := ⟨{ copied s b with loading := on }, [], [], []⟩) hopen
        ((doorLimit_loading (copied s b) on).trans_le hl))
  rw [turnSetLoading_taken ho hon, hwork, beginCommand_begun]
  rfl

/-- The flag changes, and the door has not been open for its new limit. -/
theorem turnSetLoading_within (ho : (s.bay b).occupied = true) (hon : (cmd.b == 1) = on) (hne : (s.bay b).loading ≠ on)
    (hl : (s.bay b).elapsedAt s.clock.time < (s.bay b).limitFor on)
    (hdoor : (s.bay b).door.state = .isOpen ∨ ((s.bay b).door.state = .openLong ∧ on = true)) :
    turnSetLoading b cmd s =
      updateBegun (s.setProgress (.updating b)) b
        { (copied s b).markStale .door with
          loading := on
          door :=
            { (s.bay b).door with
              state := .isOpen
              timer :=
                .running ((s.bay b).limitFor on - (s.bay b).elapsedAt s.clock.time)
                  ((s.bay b).limitFor on - (s.bay b).elapsedAt s.clock.time) } } false := by
  have hlimit : ({ copied s b with loading := on } : BayEntry).doorLimit = (s.bay b).limitFor on := doorLimit_loading _ _
  have hwork : (startWork b s).setLoading (s.ctx b) on = _ :=
    (setLoading_changed (w := startWork b s) hne).trans
      (judgeLoading_within (c := s.ctx b) (w := ⟨{ copied s b with loading := on }, [], [], []⟩)
        (hl.trans_eq hlimit.symm) hdoor)
  simp only [hlimit] at hwork
  rw [turnSetLoading_taken ho hon, hwork, beginCommand_begun]
  rfl
end

/-! ## FORCE_DEFROST and ASSIGN_FEEDER (R103, R122) -/

theorem forcible_of_resting {d : DefrostState} (h : d = .idle ∨ d = .draining) : d.forcible = true := by
  rcases h with rfl | rfl <;> rfl

theorem demand_eq {c : Ctx} {w : Work} (h : w.bay.defrost.state = .idle ∨ w.bay.defrost.state = .draining) :
    w.demand c =
      Work.routePower c
        ⟨{ w.bay.markStale .defrost with
            defrost := { w.bay.defrost with state := .due, iceCount := 0, timer := .stopped } },
          w.reports, w.orders, w.conds⟩ := by
  have hleave := leave_resting (w := w.defrost { w.bay.defrost with iceCount := 0 }) h .due
  unfold Work.demand Work.enterDue
  rw [moveTo_ne (new := .due) nofun, hleave, enter_due]
  rfl

theorem turnForceDefrost_taken {b : BayNo} {cmd : Command} {s : State} {e : BayEntry} {reports : List Report} {q : Sources}
    (ho : (s.bay b).occupied = true) (hd : (s.bay b).defrost.state = .idle ∨ (s.bay b).defrost.state = .draining)
    (hr : Routed s.params.startWindow s.clock.time b
      { (copied s b).markStale .defrost with
        defrost := { (s.bay b).defrost with state := .due, iceCount := 0, timer := .stopped } } s.sources e reports q) :
    turnForceDefrost b cmd s =
      feederReports b reports { updateBegun (s.setProgress (.updating b)) b e false with sources := q } := by
  have hc : ((s.bay b).occupied && (s.bay b).defrost.state.forcible) = true := by rw [ho, forcible_of_resting hd]; rfl
  have hturn : turnForceDefrost b cmd s = beginCommand b ((startWork b s).demand (s.ctx b)) false s := by
    simp only [turnForceDefrost, hc, if_true]
  have hdemand := demand_eq (c := s.ctx b) (w := startWork b s) hd
  obtain ⟨tells, hroute, htold⟩ := Routed.routePower (c := s.ctx b)
    (w := ⟨{ (startWork b s).bay.markStale .defrost with
        defrost := { (startWork b s).bay.defrost with state := .due, iceCount := 0, timer := .stopped } }, [], [], []⟩) hr
    (congrArg (fun x : BayEntry => { x with
        defrost := { (startWork b s).bay.defrost with state := .due, iceCount := 0, timer := .stopped } })
      (BayEntry.markStale_markStale (startWork b s).bay .defrost))
  have hwork : (startWork b s).demand (s.ctx b) = ⟨e, reports, tells, []⟩ := hdemand.trans hroute
  have hq : toldOf b ⟨e, reports, tells, []⟩ s = q := by
    rw [toldOf_eq]
    exact htold
  rw [hturn, beginCommand_begun, hwork, hq]

theorem turnAssignFeeder_taken {b : BayNo} {cmd : Command} {s : State} {f : FeederNo} (ho : (s.bay b).occupied = true)
    (hd : (s.bay b).defrost.state = .idle ∨ (s.bay b).defrost.state = .draining) (hb : cmd.b.toNat = f.val) :
    turnAssignFeeder b cmd s = updateBegun (s.setProgress (.updating b)) b { copied s b with feeder := f } false := by
  have hc : ((s.bay b).occupied && (s.bay b).defrost.state.forcible) = true := by rw [ho, forcible_of_resting hd]; rfl
  have hf : Fin.ofNat 8 cmd.b.toNat = f := by
    rw [hb]
    exact Fin.ext (Nat.mod_eq_of_lt f.isLt)
  have hturn : turnAssignFeeder b cmd s =
      beginCommand b { startWork b s with bay := { (startWork b s).bay with feeder := f } } false s := by
    simp only [turnAssignFeeder, hc, if_true, hf]
  rw [hturn, beginCommand_begun]
  rfl

/-! ## CANCEL_DEFROST (R104) -/

theorem turnCancelDefrost_taken {b : BayNo} {cmd : Command} {s : State} (ho : (s.bay b).occupied = true)
    (hd : (s.bay b).defrost.state.cancellable = true) :
    turnCancelDefrost b cmd s = beginCommand b ((startWork b s).cancel (s.ctx b)) false s := by
  simp only [turnCancelDefrost, ho, hd, Bool.and_self, if_true]

theorem cancel_due {c : Ctx} {w : Work} (h : w.bay.defrost.state = .due) :
    w.cancel c =
      ⟨{ w.bay.markStale .defrost with
          defrost :=
            { w.bay.defrost with
              state := .idle, reason := .queued, attempts := 0, iceCount := 0, grantFeeder := none, timer := .stopped,
              lastEnd := some c.now } },
        w.reports ++ (if w.bay.defrost.reason = .queued then [.leaveQueue w.bay.feeder] else []), w.orders, w.conds⟩ := by
  have hc : w.cancel c = (w.defrost { w.bay.defrost with lastEnd := some c.now }).moveTo c.params .idle := by
    simp only [Work.cancel, h]
  rw [hc, moveTo_ne (new := .idle) nofun, leave_due (w := w.defrost { w.bay.defrost with lastEnd := some c.now }) h, enter_idle]
  rfl

/-- A START still pending is withdrawn with the grant. -/
theorem cancel_unposted {c : Ctx} {w : Work} {f : Option FeederNo} (h : w.bay.defrost.state = .ordered)
    (hp : w.bay.defrost.pending = some ⟨.start, f⟩) :
    w.cancel c =
      ⟨{ w.bay.markStale .defrost with
          defrost :=
            { w.bay.defrost with
              state := .idle, attempts := 0, iceCount := 0, grantFeeder := none, timer := .stopped, pending := none,
              lastEnd := some c.now } },
        w.reports ++ releaseReport w.bay.defrost, w.orders ++ [.withdrawn], w.conds⟩ := by
  have hstart : w.bay.defrost.startPending = true := (startPending_iff _).2 ⟨f, hp⟩
  have hc : w.cancel c = (w.defrost { w.bay.defrost with lastEnd := some c.now }).moveTo c.params .idle := by
    simp only [Work.cancel, h, hstart, if_true]
  have hg : w.bay.defrost.state.granted = true := by rw [h]; rfl
  rw [hc, moveTo_ne (new := .idle) nofun, leave_granted (w := w.defrost { w.bay.defrost with lastEnd := some c.now }) hg,
    if_neg (by decide), release_eq,
    startWithdrawn_of_start (d := (w.defrost { w.bay.defrost with lastEnd := some c.now }).bay.defrost) hp,
    withdrawTells_of_start (d := (w.defrost { w.bay.defrost with lastEnd := some c.now }).bay.defrost) hp, enter_idle]
  rfl

/-- A defrost that was ordered to start is ordered to stop. -/
theorem cancel_stopping {c : Ctx} {w : Work}
    (h : (w.bay.defrost.state = .ordered ∧ ∀ f, w.bay.defrost.pending ≠ some ⟨.start, f⟩) ∨ w.bay.defrost.state = .running) :
    w.cancel c =
      ⟨{ w.bay.markStale .defrost with
          defrost :=
            { w.bay.defrost with
              state := .stopping, timer := .running c.params.stopWindow c.params.stopWindow,
              orderNumber := nextOrderNumber w.bay.defrost.orderNumber, lastKind := some .stop,
              pending := some ⟨.stop, w.bay.defrost.grantFeeder⟩, lastEnd := some c.now } },
        w.reports, w.orders ++ [.pends], w.conds⟩ := by
  have hc : w.cancel c = (w.defrost { w.bay.defrost with lastEnd := some c.now }).moveTo c.params .stopping := by
    rcases h with ⟨h, hp⟩ | h
    · have hstart : w.bay.defrost.startPending = false := by
        rw [← Bool.not_eq_true, startPending_iff, not_exists]
        exact hp
      simp only [Work.cancel, h, hstart, Bool.false_eq_true, if_false]
    · simp only [Work.cancel, h]
  have hg : w.bay.defrost.state.granted = true := by
    rcases h with ⟨h, -⟩ | h <;> (rw [h]; rfl)
  rw [hc, moveTo_ne (new := .stopping) nofun,
    leave_granted (w := w.defrost { w.bay.defrost with lastEnd := some c.now }) hg, if_pos (by decide), enter_stopping]
  rfl

theorem cancel_self {c : Ctx} {w : Work} (h : w.bay.defrost.state = .self) :
    w.cancel c =
      ⟨{ w.bay with
          defrost :=
            { w.bay.defrost with
              lastEnd := some c.now, orderNumber := nextOrderNumber w.bay.defrost.orderNumber, lastKind := some .stop,
              pending := some ⟨.stop, none⟩ } },
        w.reports, w.orders ++ [.pends], w.conds⟩ := by
  have hc : w.cancel c = (w.defrost { w.bay.defrost with lastEnd := some c.now }).pendOrder .stop none := by
    simp only [Work.cancel, h]
  rw [hc]
  rfl

end Sys2Proof.Machine

/-! PROOFS. O23, O25, O26, O27: the bay commands that are taken at a free bay. -/

namespace Sys2Proof.Machine

/-! ## A free bay has no expiry to mark -/

theorem FreeBay.markStale {s : State} {b : BayNo} (h : FreeBay s b) (t : BayTimer) :
    (copied s b).markStale t = copied s b := by
  obtain ⟨-, hw, hh, -, -⟩ := h
  exact BayEntry.markStale_of_nothing (e := copied s b) hw hh t

theorem FreeBay.allStale {s : State} {b : BayNo} (h : FreeBay s b) : (copied s b).allStale = copied s b := by
  unfold BayEntry.allStale
  rw [h.markStale, h.markStale, h.markStale]

theorem exists_unlisted (s : State) (a : RadioAddr) : ∃ unknown tags, Unlisted s a unknown tags := by
  cases h : s.link.listedAt a with
  | none => exact ⟨_, _, ⟨fun _ => ⟨rfl, rfl⟩, fun p hp => by rw [h] at hp; cases hp⟩⟩
  | some p =>
    refine ⟨s.link.unknown.set p none, s.sources.tags.set p false, ⟨fun hn => ?_, fun p' hp => ?_⟩⟩
    · rw [h] at hn
      cases hn
    · rw [h] at hp
      cases hp
      exact ⟨rfl, rfl⟩

/-! ## The rows at their turn -/

section
variable {s : State} {i : Initiator} {b : BayNo} {u : State}

theorem exec_mapTag (ho : Open s i) (hm : s.decoder.mode ≠ .pass) (h : BayCommand s i (.mapTag i) 6 b) (hf : FreeBay s b)
    (hturn : turnMapTag b (taken s.mailbox 6) (commandWaits s 6 (.awaitsTurn b)) = u) :
    exec (.mapTag i) s = .next (commandStep u i 6) := exec_bayCommand ho hm h hf hturn

theorem exec_unmapTag (ho : Open s i) (hm : s.decoder.mode ≠ .pass) (h : BayCommand s i (.unmapTag i) 7 b) (hf : FreeBay s b)
    (hturn : turnUnmapTag b (taken s.mailbox 7) (commandWaits s 7 (.awaitsTurn b)) = u) :
    exec (.unmapTag i) s = .next (commandStep u i 7) := exec_bayCommand ho hm h hf hturn

theorem exec_setLoading (ho : Open s i) (hm : s.decoder.mode ≠ .pass) (h : BayCommand s i (.setLoading i) 8 b)
    (hf : FreeBay s b) (hturn : turnSetLoading b (taken s.mailbox 8) (commandWaits s 8 (.awaitsTurn b)) = u) :
    exec (.setLoading i) s = .next (commandStep u i 8) := exec_bayCommand ho hm h hf hturn

theorem exec_forceDefrost (ho : Open s i) (hm : s.decoder.mode ≠ .pass) (h : BayCommand s i (.forceDefrost i) 9 b)
    (hf : FreeBay s b) (hturn : turnForceDefrost b (taken s.mailbox 9) (commandWaits s 9 (.awaitsTurn b)) = u) :
    exec (.forceDefrost i) s = .next (commandStep u i 9) := exec_bayCommand ho hm h hf hturn

theorem exec_cancelDefrost (ho : Open s i) (hm : s.decoder.mode ≠ .pass) (h : BayCommand s i (.cancelDefrost i) 10 b)
    (hf : FreeBay s b) (hturn : turnCancelDefrost b (taken s.mailbox 10) (commandWaits s 10 (.awaitsTurn b)) = u) :
    exec (.cancelDefrost i) s = .next (commandStep u i 10) := exec_bayCommand ho hm h hf hturn

theorem exec_assignFeeder (ho : Open s i) (hm : s.decoder.mode ≠ .pass) (h : BayCommand s i (.assignFeeder i) 12 b)
    (hf : FreeBay s b) (hturn : turnAssignFeeder b (taken s.mailbox 12) (commandWaits s 12 (.awaitsTurn b)) = u) :
    exec (.assignFeeder i) s = .next (commandStep u i 12) := exec_bayCommand ho hm h hf hturn
end

/-! ## MAP_TAG and UNMAP_TAG -/

theorem givenUp_granted {e : BayEntry} (h : e.defrost.state.granted = true) : e.givenUp = releaseReport e.defrost := by
  unfold BayEntry.givenUp
  cases hs : e.defrost.state <;> simp only [hs, DefrostState.granted, Bool.false_eq_true] at h ⊢

theorem givenUp_due {e : BayEntry} (h : e.defrost.state = .due) :
    e.givenUp = if e.defrost.reason = .queued then [.leaveQueue e.feeder] else [] := by
  simp only [BayEntry.givenUp, h]

theorem givenUp_self {e : BayEntry} (h : e.defrost.state = .self) : e.givenUp = [.selfLeave e.feeder] := by
  simp only [BayEntry.givenUp, h]

theorem givenUp_resting {e : BayEntry} (h : e.defrost.state = .idle ∨ e.defrost.state = .draining) : e.givenUp = [] := by
  rcases h with h | h <;> simp only [BayEntry.givenUp, h]

/-- Settles O23: `turnMapTag_taken` and `turnUnmapTag_taken` at a free bay. -/
theorem mapTagAndUnmapTagBeginTheirUpdates : Obligations.MapTagAndUnmapTagBeginTheirUpdates := by
  unfold Obligations.MapTagAndUnmapTagBeginTheirUpdates
  refine ⟨fun i b a k s ho hm hb hf ha hk hocc hnew => ?_, fun i b s ho hm hb hf hocc => ?_⟩
  · subst ha hk
    obtain ⟨unknown, tags, hu⟩ := exists_unlisted s (s.mailbox.argA.setWidth 10)
    refine ⟨unknown, tags, hu.absent, hu.listed, exec_mapTag ho hm hb hf ?_⟩
    have hturn := turnMapTag_taken (b := b) (cmd := taken s.mailbox 6) (s := commandWaits s 6 (.awaitsTurn b)) hocc hnew
      ⟨hu.absent, hu.listed⟩
    have hcopied : copied (commandWaits s 6 (.awaitsTurn b)) b = copied s b := rfl
    rw [hturn, hcopied]
    unfold BayEntry.mapped
    rw [hf.allStale]
    rfl
  · refine ⟨(s.bay b).givenUp, givenUp_granted, givenUp_due, givenUp_self, givenUp_resting, exec_unmapTag ho hm hb hf ?_⟩
    have hturn := turnUnmapTag_taken (b := b) (cmd := taken s.mailbox 7) (s := commandWaits s 7 (.awaitsTurn b)) hocc
    have hcopied : copied (commandWaits s 7 (.awaitsTurn b)) b = copied s b := rfl
    rw [hturn, hcopied]
    unfold BayEntry.unmapped
    rw [hf.allStale]
    rfl

/-! ## SET_LOADING -/

/-- Settles O25: the three turns of SET_LOADING at a free bay. -/
theorem setLoadingBeginsItsUpdate : Obligations.SetLoadingBeginsItsUpdate := by
  unfold Obligations.SetLoadingBeginsItsUpdate
  intro i b on limit elapsed s ho hm hb hf hocc harg hlimit helapsed e u
  have hon : ((taken s.mailbox 8).b == 1) = on := by
    show (s.mailbox.argB == 1) = on
    rw [harg]
    cases on <;> decide
  have hstale : (copied (commandWaits s 8 (.awaitsTurn b)) b).markStale .door = copied s b := hf.markStale .door
  subst hlimit helapsed
  refine ⟨fun h => exec_setLoading ho hm hb hf ?_, fun hne hopen hpassed => exec_setLoading ho hm hb hf ?_,
    fun hne hwithin hdoors => exec_setLoading ho hm hb hf ?_⟩
  · exact turnSetLoading_only (s := commandWaits s 8 (.awaitsTurn b)) hocc hon h
  · rw [turnSetLoading_passed (s := commandWaits s 8 (.awaitsTurn b)) hocc hon hne hopen hpassed, hstale]
    rfl
  · rw [turnSetLoading_within (s := commandWaits s 8 (.awaitsTurn b)) hocc hon hne hwithin hdoors, hstale]
    rfl

/-! ## FORCE_DEFROST, ASSIGN_FEEDER and CANCEL_DEFROST -/

/-- Settles O26: `turnForceDefrost_taken` and `turnAssignFeeder_taken` at a free bay. -/
theorem defrostIsForcedAndFeedersAssigned : Obligations.DefrostIsForcedAndFeedersAssigned := by
  unfold Obligations.DefrostIsForcedAndFeedersAssigned
  refine ⟨fun i b e reports q s ho hm hb hf hocc hd hr => exec_forceDefrost ho hm hb hf ?_,
    fun i b f s ho hm hb hf hocc hd harg => exec_assignFeeder ho hm hb hf ?_⟩
  · refine turnForceDefrost_taken (s := commandWaits s 9 (.awaitsTurn b)) hocc hd ?_
    have hcopied : copied (commandWaits s 9 (.awaitsTurn b)) b = copied s b := rfl
    rw [hcopied, hf.markStale]
    exact hr
  · exact turnAssignFeeder_taken (s := commandWaits s 12 (.awaitsTurn b)) hocc hd harg

/-- Settles O27: the four cases of `Work.cancel` at a free bay. -/
theorem cancelDefrostFollowsItsTable : Obligations.CancelDefrostFollowsItsTable := by
  unfold Obligations.CancelDefrostFollowsItsTable
  intro i b s ho hm hb hf hocc d ended u stopping
  have hexec {w : Work} {v : State} (hd : d.state.cancellable = true) (hw : (startWork b s).cancel (s.ctx b) = w)
      (h : feederReports b w.reports
        { updateBegun (commandWaits s 10 (.updating b)) b w.bay false with sources := toldOf b w s } = v) :
      exec (.cancelDefrost i) s = .next (commandStep v i 10) := by
    refine exec_cancelDefrost ho hm hb hf ?_
    rw [turnCancelDefrost_taken (s := commandWaits s 10 (.awaitsTurn b)) hocc hd, beginCommand_begun]
    have hw' : (startWork b (commandWaits s 10 (.awaitsTurn b))).cancel ((commandWaits s 10 (.awaitsTurn b)).ctx b) = w := hw
    rw [hw', ← h]
    rfl
  have hstale : (startWork b s).bay.markStale .defrost = copied s b := hf.markStale .defrost
  refine ⟨fun h => hexec ?_ (cancel_due (w := startWork b s) h) ?_, fun f h hp => hexec ?_ (cancel_unposted (w := startWork b s) h hp) ?_,
    fun h => hexec ?_ (cancel_stopping (w := startWork b s) h) ?_, fun h => hexec ?_ (cancel_self (w := startWork b s) h) ?_⟩
  · rw [h]
    rfl
  · rw [hstale]
    rfl
  · rw [h]
    rfl
  · rw [hstale]
    rfl
  · rcases h with ⟨h, -⟩ | h <;> (rw [h]; rfl)
  · rw [hstale]
    rfl
  · rw [h]
    rfl
  · rfl

end Sys2Proof.Machine

/-! PROOFS. The turn of a bay's events at a free, unlocked bay (R67, R72, R115), and the current command's (R53-R55, R69). -/

namespace Sys2Proof.Machine

/-! ## The head of the waiting events -/

section
variable {b : BayNo} {s : State} {ev : BayEvent} {more : List BayEvent}

theorem turn_of_waiting (hf : (s.bay b).inFlight = false) (hl : s.locked b = false) (hw : (s.bay b).waiting = ev :: more) :
    turn b s =
      if ((startEvent b ev (s.setWaiting b more)).bay b).inFlight then startEvent b ev (s.setWaiting b more)
      else turnList b more (startEvent b ev (s.setWaiting b more)) := by
  unfold turn
  rw [hf, hl, hw]
  rfl

/-- The event begins an update. -/
theorem turn_begins (hf : (s.bay b).inFlight = false) (hl : s.locked b = false) (hw : (s.bay b).waiting = ev :: more)
    {t : State} (hs : startEvent b ev (s.setWaiting b more) = t) (ht : (t.bay b).inFlight = true) : turn b s = t := by
  rw [turn_of_waiting hf hl hw, hs, if_pos ht]

/-- The event is done with, and the next has its turn. -/
theorem turn_passes (hf : (s.bay b).inFlight = false) (hl : s.locked b = false) (hw : (s.bay b).waiting = ev :: more)
    {t : State} (hs : startEvent b ev (s.setWaiting b more) = t) (ht : t.bay b = (s.setWaiting b more).bay b)
    (hlt : t.locked b = s.locked b) : turn b s = turn b t := by
  have hbay : t.bay b = { s.bay b with waiting := more } := ht.trans (setBay_bay_self s b _)
  have hft : (t.bay b).inFlight = false := by rw [hbay]; exact hf
  have hwt : (t.bay b).waiting = more := by rw [hbay]
  rw [turn_of_waiting hf hl hw, hs, hft]
  unfold turn
  rw [hft, hlt, hl, hwt]
  rfl
end

theorem updateBegun_inFlight (s : State) (b : BayNo) (e : BayEntry) (full : Bool) :
    ((updateBegun s b e full).bay b).inFlight = true := congrArg BayEntry.inFlight (setBay_bay_self s b { e with inFlight := true })

theorem frameFits_iff (e : BayEntry) (h : HandedFrame) : frameFits e h = true ↔ e.occupied = true ∧ e.radio = some h.radio := by
  simp [frameFits]

theorem meetFrame_fits {b : BayNo} {h : HandedFrame} {s : State}
    (hfit : (s.bay b).occupied = true ∧ (s.bay b).radio = some h.radio) :
    meetFrame b h s = update b (Work.evaluate (s.ctx b) h) s := if_pos ((frameFits_iff _ _).2 hfit)

theorem meetFrame_misfit {b : BayNo} {h : HandedFrame} {s : State}
    (hfit : ¬ ((s.bay b).occupied = true ∧ (s.bay b).radio = some h.radio)) : meetFrame b h s = s :=
  if_neg (mt (frameFits_iff _ _).1 hfit)

theorem update_begun (b : BayNo) (g : Work → Work) (s : State) :
    update b g s =
      feederReports b (g (startWork b s)).reports
        { updateBegun s b (g (startWork b s)).bay false with sources := toldOf b (g (startWork b s)) s } :=
  commit_begun b _ false s

theorem update_inFlight (b : BayNo) (g : Work → Work) (s : State) : ((update b g s).bay b).inFlight = true :=
  commit_inFlight b _ false s

/-! ## The current command -/

/-- The turn of a command by its code (R191). -/
def turnOf (code : Nat) (b : BayNo) (cmd : Command) (s : State) : State :=
  match code with
  | 6 => turnMapTag b cmd s
  | 7 => turnUnmapTag b cmd s
  | 8 => turnSetLoading b cmd s
  | 9 => turnForceDefrost b cmd s
  | 10 => turnCancelDefrost b cmd s
  | 12 => turnAssignFeeder b cmd s
  | _ => s

theorem turnCommand_current {b : BayNo} {cmd : Command} {s : State} (h : s.mailbox.current = some cmd) :
    turnCommand b s = turnOf cmd.code.toNat b cmd s := by
  simp only [turnCommand, h] <;> rfl

theorem finish_of_current {s : State} {cmd : Command} (h : s.mailbox.current = some cmd) (r : Result) :
    s.finish r =
      { s with mailbox := resultIn s.mailbox cmd.code r, status := { s.status with resultPending := true } } := by
  unfold State.finish
  split
  · rename_i hnone
    rw [h] at hnone
    cases hnone
  · rename_i cmd' hcmd
    rw [h] at hcmd
    cases hcmd
    rfl

/-- The current command, refused on the bay's state (R53, R69, R103, R104, R122). -/
theorem turnOf_refused {b : BayNo} {cmd : Command} {s : State}
    (h : (cmd.code = 6 ∧ ((s.bay b).occupied = true ∨ ∃ t ∈ s.link.tagMap, t.radio = cmd.a.setWidth 10))
      ∨ ((cmd.code = 7 ∨ cmd.code = 8 ∨ cmd.code = 9 ∨ cmd.code = 10 ∨ cmd.code = 12) ∧ (s.bay b).occupied = false)
      ∨ ((cmd.code = 9 ∨ cmd.code = 12)
        ∧ ¬ ((s.bay b).defrost.state = .idle ∨ (s.bay b).defrost.state = .draining))
      ∨ (cmd.code = 10
        ∧ ((s.bay b).defrost.state = .idle ∨ (s.bay b).defrost.state = .stopping
          ∨ (s.bay b).defrost.state = .draining))) : turnOf cmd.code.toNat b cmd s = s.finish .badState := by
  rcases h with ⟨hc, h⟩ | ⟨hc, h⟩ | ⟨hc, h⟩ | ⟨hc, h⟩
  · rw [hc]
    exact turnMapTag_refused h
  · rcases hc with hc | hc | hc | hc | hc <;> rw [hc]
    · exact turnUnmapTag_vacant h
    · exact turnSetLoading_vacant h
    · exact turnForceDefrost_refused (cmd := cmd) (.inl h)
    · exact turnCancelDefrost_refused (cmd := cmd) (.inl h)
    · exact turnAssignFeeder_refused (cmd := cmd) (.inl h)
  · have hno := DefrostState.forcible_eq_false (not_or.1 h)
    rcases hc with hc | hc <;> rw [hc]
    · exact turnForceDefrost_refused (cmd := cmd) (.inr hno)
    · exact turnAssignFeeder_refused (cmd := cmd) (.inr hno)
  · rw [hc]
    exact turnCancelDefrost_refused (cmd := cmd) (.inr (DefrostState.cancellable_eq_false h))

/-! ## The turn of the current command -/

section
variable {b : BayNo} {cmd : Command} {more : List BayEvent} {s : State}

/-- The current command at the head of the events begins its update. -/
theorem turn_command_begins (hf : (s.bay b).inFlight = false) (hl : s.locked b = false)
    (hw : (s.bay b).waiting = .command :: more) (hc : s.mailbox.current = some cmd) {t : State}
    (hs : turnOf cmd.code.toNat b cmd (s.setWaiting b more) = t) (ht : (t.bay b).inFlight = true) : turn b s = t := by
  refine turn_begins hf hl hw ?_ ht
  have hcur : (s.setWaiting b more).mailbox.current = some cmd := hc
  rw [← hs]
  exact turnCommand_current hcur

theorem reports_inFlight (reports : List Report) {t : State} (ht : (t.bay b).inFlight = true) :
    ((feederReports b reports t).bay b).inFlight = true := (feederReports_moves b reports t).inFlight ht

end

end Sys2Proof.Machine

/-! PROOFS. O24: which expiries an evaluation, an expiry and UNMAP_TAG make stale, and the turn of each event. -/

namespace Sys2Proof.Machine

/-! ## The expiries of restarted timers (R68; log 23) -/

/-- An expiry of a timer that is restarted becomes stale. -/
def BayEvent.restart (r : BayTimer → Bool) : BayEvent → BayEvent
  | .expiry u stale => .expiry u (stale || r u)
  | ev => ev

/-- From `w` to `w'` the timers of `r`, and no other, are restarted. -/
structure Restarted (r : BayTimer → Bool) (w w' : Work) : Prop where
  waiting : w'.bay.waiting = w.bay.waiting.map (BayEvent.restart r)
  held : w'.bay.held = w.bay.held.map (BayEvent.restart r)

theorem restart_none (ev : BayEvent) : ev.restart (fun _ => false) = ev := by
  cases ev with
  | expiry u stale => simp only [BayEvent.restart, Bool.or_false]
  | _ => rfl

theorem restart_restart (r r' : BayTimer → Bool) (ev : BayEvent) :
    (ev.restart r).restart r' = ev.restart (fun u => r u || r' u) := by
  cases ev with
  | expiry u stale => simp only [BayEvent.restart, Bool.or_assoc]
  | _ => rfl

theorem markStale_eq_restart (t : BayTimer) : BayEvent.markStale t = BayEvent.restart (fun u => u == t) := by
  funext ev
  cases ev <;> rfl

theorem Restarted.none {w w' : Work} (hw : w'.bay.waiting = w.bay.waiting) (hh : w'.bay.held = w.bay.held) :
    Restarted (fun _ => false) w w' := by
  refine ⟨?_, ?_⟩
  · rw [hw, List.map_congr_left fun ev _ => restart_none ev, List.map_id']
  · rw [hh, List.map_congr_left fun ev _ => restart_none ev, List.map_id']

theorem Restarted.trans {r r' : BayTimer → Bool} {w w' w'' : Work} (h : Restarted r w w') (h' : Restarted r' w' w'') :
    Restarted (fun u => r u || r' u) w w'' := by
  refine ⟨?_, ?_⟩
  · rw [h'.waiting, h.waiting, List.map_map]
    exact List.map_congr_left fun ev _ => restart_restart r r' ev
  · rw [h'.held, h.held, List.map_map]
    exact List.map_congr_left fun ev _ => restart_restart r r' ev

theorem Restarted.congr {r r' : BayTimer → Bool} {w w' : Work} (h : Restarted r w w') (hr : ∀ u, r u = r' u) :
    Restarted r' w w' := by
  rwa [funext hr] at h

/-- One timer is restarted. -/
theorem Restarted.one {t : BayTimer} {w w' : Work} (hw : w'.bay.waiting = (w.bay.markStale t).waiting)
    (hh : w'.bay.held = (w.bay.markStale t).held) : Restarted (fun u => u == t) w w' :=
  ⟨by rw [hw, ← markStale_eq_restart]; rfl, by rw [hh, ← markStale_eq_restart]; rfl⟩

/-! ## Leaving and entering a defrost state -/

theorem withdrawStart_lists (w : Work) :
    w.withdrawStart.bay.waiting = w.bay.waiting ∧ w.withdrawStart.bay.held = w.bay.held := by
  rw [withdrawStart_eq]
  exact ⟨rfl, rfl⟩

theorem leave_lists (new : DefrostState) (w : Work) :
    (w.leave new).bay.waiting = w.bay.waiting ∧ (w.leave new).bay.held = w.bay.held := by
  cases hs : w.bay.defrost.state with
  | due => rw [leave_due hs]; exact ⟨rfl, rfl⟩
  | ordered | running | stopping =>
    rw [leave_granted (by rw [hs]; rfl), release_eq]
    split <;> exact ⟨rfl, rfl⟩
  | self => rw [leave_self hs]; exact ⟨rfl, rfl⟩
  | idle => rw [leave_resting (.inl hs)]; exact ⟨rfl, rfl⟩
  | draining => rw [leave_resting (.inr hs)]; exact ⟨rfl, rfl⟩

theorem enter_restarts (p : Params) (new : DefrostState) (w : Work) :
    Restarted (fun u => u == .defrost) w (w.enter p new) ∧ (w.enter p new).bay.defrost.state = new := by
  cases new <;> exact ⟨.one rfl rfl, rfl⟩

/-- A change of state restarts the defrost timer. -/
theorem moveTo_restarts (p : Params) (new : DefrostState) (w : Work) :
    Restarted (fun u => u == .defrost) w (w.moveTo p new) := by
  obtain ⟨hw, hh⟩ := leave_lists (if new = .draining ∧ p.drainTime = 0 then .idle else new) w
  exact (Restarted.none hw hh).trans (enter_restarts p _ _).1 |>.congr fun u => Bool.false_or _

theorem moveTo_state (p : Params) (new : DefrostState) (w : Work) :
    (w.moveTo p new).bay.defrost.state = if new = .draining ∧ p.drainTime = 0 then .idle else new :=
  (enter_restarts p _ _).2

/-- A stage changes the defrost state if and only if it restarts the defrost timer. -/
def DefrostPaired (w w' : Work) : Prop :=
  Restarted (fun u => u == .defrost && w'.bay.defrost.state != w.bay.defrost.state) w w'

theorem DefrostPaired.same {w w' : Work} (hw : w'.bay.waiting = w.bay.waiting) (hh : w'.bay.held = w.bay.held)
    (hs : w'.bay.defrost.state = w.bay.defrost.state) : DefrostPaired w w' :=
  (Restarted.none hw hh).congr fun u => by rw [hs, bne_self_eq_false, Bool.and_false]

theorem DefrostPaired.moved {w w' : Work} (h : Restarted (fun u => u == .defrost) w w')
    (hs : w'.bay.defrost.state ≠ w.bay.defrost.state) : DefrostPaired w w' :=
  h.congr fun u => by rw [bne_iff_ne.2 hs, Bool.and_true]

/-- The stage starts from the lists and the state of `w`. -/
theorem DefrostPaired.after {w w1 w' : Work} (hw : w1.bay.waiting = w.bay.waiting) (hh : w1.bay.held = w.bay.held)
    (hs : w1.bay.defrost.state = w.bay.defrost.state) (h : DefrostPaired w1 w') : DefrostPaired w w' := by
  unfold DefrostPaired at *
  rw [hs] at h
  exact ⟨by rw [h.waiting, hw], by rw [h.held, hh]⟩

theorem DefrostPaired.ite {w w' w'' : Work} {c : Prop} [Decidable c] (h : c → DefrostPaired w w')
    (h' : ¬ c → DefrostPaired w w'') : DefrostPaired w (if c then w' else w'') := by
  split
  · rename_i hc; exact h hc
  · rename_i hc; exact h' hc

/-- A change of the record and the lists of the update alone, before a move to another state. -/
theorem DefrostPaired.moveTo {p : Params} {new : DefrostState} {w w1 : Work} (hw : w1.bay.waiting = w.bay.waiting)
    (hh : w1.bay.held = w.bay.held) (h : w.bay.defrost.state ≠ new)
    (h0 : new = .draining → w.bay.defrost.state ≠ .idle) : DefrostPaired w (w1.moveTo p new) := by
  refine .moved ((Restarted.none hw hh).trans (moveTo_restarts p new w1) |>.congr fun u => Bool.false_or _) ?_
  rw [moveTo_state]
  split
  · rename_i hc
    exact fun he => h0 hc.1 he.symm
  · exact h.symm

/-! ## The stages of an evaluation -/

theorem routePower_paired (c : Ctx) {w : Work} (hd : w.bay.defrost.state = .due) : DefrostPaired w (w.routePower c) := by
  unfold Work.routePower
  refine .ite (fun _ => .same rfl rfl rfl) fun _ => .ite (fun _ => ?_) fun _ => .same rfl rfl rfl
  refine .moved (w := w) (.one rfl rfl) ?_
  rw [(enter_restarts c.params .ordered _).2, hd]
  nofun

theorem demand_paired (c : Ctx) {w : Work} (hs : w.bay.defrost.state = .idle) : DefrostPaired w (w.demand c) := by
  have hdue : (((w.defrost { w.bay.defrost with iceCount := 0 }).moveTo c.params .due)).bay.defrost.state = .due :=
    moveTo_state c.params .due _
  have hmove := moveTo_restarts c.params .due (w.defrost { w.bay.defrost with iceCount := 0 })
  have hroute := routePower_paired c hdue
  have hall : Restarted (fun u => u == .defrost) w (w.demand c) := by
    refine ((Restarted.none (w := w) (w' := w.defrost { w.bay.defrost with iceCount := 0 }) rfl rfl).trans hmove).trans hroute
      |>.congr fun u => ?_
    cases (u == BayTimer.defrost) <;> simp
  refine .moved hall ?_
  rw [hs]
  unfold Work.demand Work.enterDue Work.routePower
  simp only []
  split
  · exact fun h => by cases hdue.symm.trans h
  · split
    · rw [(enter_restarts c.params .ordered _).2]
      nofun
    · exact fun h => by cases hdue.symm.trans h

theorem unordered_paired (c : Ctx) {w : Work}
    (hs : w.bay.defrost.state = .idle ∨ w.bay.defrost.state = .draining ∨ w.bay.defrost.state = .due) :
    DefrostPaired w (w.unordered c) := by
  refine DefrostPaired.moveTo rfl rfl ?_ nofun
  rcases hs with hs | hs | hs <;> (rw [hs]; nofun)

theorem reroute_paired (c : Ctx) {w : Work} (hd : w.bay.defrost.state = .due) : DefrostPaired w (w.reroute c) := by
  unfold Work.reroute
  refine .ite (fun _ => .ite (fun _ => .same rfl rfl rfl) fun _ => ?_) fun _ => routePower_paired c hd
  exact .after (w1 := (w.defrost { w.bay.defrost with reason := .held }).report (.leaveQueue w.bay.feeder)) rfl rfl rfl
    (routePower_paired c hd)

theorem stageLateStart_paired (c : Ctx) {w : Work} (hd : w.bay.defrost.state = .due) :
    DefrostPaired w (w.stageLateStart c) := by
  have hun := unordered_paired c (w := w) (.inr (.inr hd))
  unfold Work.stageLateStart
  refine .ite (fun _ => .ite (fun _ => .moved (.one rfl rfl) ?_) fun _ => hun) fun _ => .ite (fun _ => ?_) fun _ => hun
  · rw [(enter_restarts c.params .running _).2, hd]
    nofun
  · exact DefrostPaired.moveTo rfl rfl (by rw [hd]; nofun) nofun

theorem defrostEnds_paired (c : Ctx) {w : Work} (h : w.bay.defrost.state ≠ .draining ∧ w.bay.defrost.state ≠ .idle) :
    DefrostPaired w (w.defrostEnds c) := DefrostPaired.moveTo rfl rfl h.1 fun _ => h.2

/-- A transition of the defrost stage restarts the defrost timer; without one the stage restarts none (R81). -/
theorem defrostStage_paired (c : Ctx) (w : Work) : DefrostPaired w (w.defrostStage c) := by
  refine .after (w1 := w.countIce) rfl rfl rfl ?_
  unfold Work.defrostStage
  simp only []
  split
  · rename_i hs
    unfold Work.stageIdle
    exact .ite (fun _ => unordered_paired c (.inl hs)) fun _ => .ite (fun _ => demand_paired c hs) fun _ => .same rfl rfl rfl
  · rename_i hs
    exact .ite (fun _ => unordered_paired c (.inr (.inl hs))) fun _ => .same rfl rfl rfl
  · rename_i hs
    unfold Work.stageDue
    exact .ite (fun _ => .ite (fun _ => stageLateStart_paired c hs) fun _ => unordered_paired c (.inr (.inr hs))) fun _ =>
      reroute_paired c hs
  · rename_i hs
    unfold Work.stageOrdered
    refine .ite (fun _ => DefrostPaired.moveTo rfl rfl (by rw [hs]; nofun) nofun) fun _ =>
      .ite (fun _ => .ite (fun _ => DefrostPaired.moveTo rfl rfl (by rw [hs]; nofun) nofun) fun _ =>
        DefrostPaired.moveTo rfl rfl (by rw [hs]; nofun) nofun) fun _ => .same rfl rfl rfl
  · rename_i hs
    unfold Work.stageRunning
    exact .ite (fun _ => defrostEnds_paired c (by rw [hs]; exact ⟨nofun, nofun⟩)) fun _ =>
      .ite (fun _ => DefrostPaired.moveTo rfl rfl (by rw [hs]; nofun) nofun) fun _ => .same rfl rfl rfl
  · rename_i hs
    exact .ite (fun _ => defrostEnds_paired c (by rw [hs]; exact ⟨nofun, nofun⟩)) fun _ => .same rfl rfl rfl
  · rename_i hs
    exact .ite (fun _ => defrostEnds_paired c (by rw [hs]; exact ⟨nofun, nofun⟩)) fun _ => .same rfl rfl rfl

/-! ## The other stages -/

theorem storeStage_restarts (c : Ctx) (h : HandedFrame) (w : Work) :
    Restarted (fun u => u == .silence) w (w.storeStage c h) := by
  unfold Work.storeStage Work.resume
  simp only []
  split <;> exact .one rfl rfl

theorem storeStage_states (c : Ctx) (h : HandedFrame) (w : Work) :
    (w.storeStage c h).bay.defrost.state = w.bay.defrost.state ∧ (w.storeStage c h).bay.door.state = w.bay.door.state := by
  unfold Work.storeStage Work.resume
  simp only []
  split <;> exact ⟨rfl, rfl⟩

theorem fuelStage_keeps (w : Work) :
    w.fuelStage.bay.waiting = w.bay.waiting ∧ w.fuelStage.bay.held = w.bay.held
      ∧ w.fuelStage.bay.defrost = w.bay.defrost ∧ w.fuelStage.bay.door = w.bay.door := by
  unfold Work.fuelStage
  split
  · unfold Work.fuelStageDiesel
    simp only []
    split <;> exact ⟨rfl, rfl, rfl, rfl⟩
  · exact ⟨rfl, rfl, rfl, rfl⟩

theorem leave_door (new : DefrostState) (w : Work) : (w.leave new).bay.door = w.bay.door := by
  cases hs : w.bay.defrost.state with
  | due => rw [leave_due hs]
  | ordered | running | stopping =>
    rw [leave_granted (by rw [hs]; rfl), release_eq]
    split <;> rfl
  | self => rw [leave_self hs]; rfl
  | idle => rw [leave_resting (.inl hs)]
  | draining => rw [leave_resting (.inr hs)]

theorem enter_door (p : Params) (new : DefrostState) (w : Work) : (w.enter p new).bay.door = w.bay.door := by
  cases new <;> rfl

theorem moveTo_door (p : Params) (new : DefrostState) (w : Work) : (w.moveTo p new).bay.door = w.bay.door :=
  (enter_door p _ _).trans (leave_door _ w)

theorem routePower_door (c : Ctx) (w : Work) : (w.routePower c).bay.door = w.bay.door := by
  unfold Work.routePower
  simp only []
  split
  · rfl
  · split <;> rfl

theorem unordered_door (c : Ctx) (w : Work) : (w.unordered c).bay.door = w.bay.door := moveTo_door _ _ _

theorem defrostEnds_door (c : Ctx) (w : Work) : (w.defrostEnds c).bay.door = w.bay.door := moveTo_door _ _ _

theorem ite_door {w w' w'' : Work} {p : Prop} [Decidable p] (h : w'.bay.door = w.bay.door) (h' : w''.bay.door = w.bay.door) :
    (if p then w' else w'').bay.door = w.bay.door := by
  split
  · exact h
  · exact h'

theorem defrostStage_door (c : Ctx) (w : Work) : (w.defrostStage c).bay.door = w.bay.door := by
  have hun (x : Work) := unordered_door c x
  have hend (x : Work) := defrostEnds_door c x
  show (Work.defrostStage c w).bay.door = w.countIce.bay.door
  unfold Work.defrostStage
  simp only []
  split
  · exact ite_door (hun _) (ite_door ((routePower_door c _).trans (moveTo_door _ _ _)) rfl)
  · exact ite_door (hun _) rfl
  · refine ite_door (ite_door (ite_door (ite_door rfl (hun _)) (ite_door (moveTo_door _ _ _) (hun _))) (hun _)) ?_
    exact ite_door (ite_door rfl (routePower_door c _)) (routePower_door c _)
  · exact ite_door (moveTo_door _ _ _) (ite_door (ite_door (moveTo_door _ _ _) (moveTo_door _ _ _)) rfl)
  · exact ite_door (hend _) (ite_door (moveTo_door _ _ _) rfl)
  · exact ite_door (hend _) rfl
  · exact ite_door (hend _) rfl

/-- The door stage restarts the door timer when the door opens, or closes from OPEN (R140, R142). -/
theorem doorStage_restarts (found : DefrostState) (w : Work) :
    Restarted
      (fun u => u == .door
        && ((w.doorStage found).bay.door.state != w.bay.door.state && w.bay.door.state != .openLong)) w
      (w.doorStage found) := by
  have hkept {w' : Work} (hw : w'.bay.waiting = w.bay.waiting) (hh : w'.bay.held = w.bay.held)
      (hd : w'.bay.door.state = w.bay.door.state ∨ w.bay.door.state = .openLong) :
      Restarted (fun u => u == .door && (w'.bay.door.state != w.bay.door.state && w.bay.door.state != .openLong)) w w' := by
    refine (Restarted.none hw hh).congr fun u => ?_
    rcases hd with hd | hd <;> simp [hd]
  have hmoved {w' : Work} (h : Restarted (fun u => u == .door) w w') (hne : w'.bay.door.state ≠ w.bay.door.state)
      (hd : w.bay.door.state ≠ .openLong) :
      Restarted (fun u => u == .door && (w'.bay.door.state != w.bay.door.state && w.bay.door.state != .openLong)) w w' := by
    refine h.congr fun u => ?_
    rw [bne_iff_ne.2 hne, bne_iff_ne.2 hd, Bool.and_self, Bool.and_true]
  unfold Work.doorStage
  split
  · unfold Work.doorSeenOpen
    simp only []
    by_cases hc : w.bay.door.state = .closed
    · simp only [hc, if_true]
      split
      · exact hc ▸ hmoved (.one rfl rfl) (by rw [hc]; nofun) (by rw [hc]; nofun)
      · exact hc ▸ hmoved (.one rfl rfl) (by rw [hc]; nofun) (by rw [hc]; nofun)
    · simp only [hc, if_false]
      split
      · exact hkept rfl rfl (.inl rfl)
      · exact hkept rfl rfl (.inl rfl)
  · unfold Work.doorSeenShut
    split
    · exact hkept rfl rfl (.inl rfl)
    · rename_i hs
      exact hmoved (.one rfl rfl) (by rw [hs]; nofun) (by rw [hs]; nofun)
    · rename_i hs
      exact hkept rfl rfl (.inr hs)

theorem doorStage_defrost (found : DefrostState) (w : Work) : (w.doorStage found).bay.defrost = w.bay.defrost := by
  unfold Work.doorStage
  split
  · unfold Work.doorSeenOpen Work.doorOpens
    simp only []
    split
    · split <;> rfl
    · split <;> rfl
  · unfold Work.doorSeenShut
    split <;> rfl

/-- An evaluation restarts the silence timer, the defrost timer when the defrost state changes, and the door timer when the
door opens or closes from OPEN. -/
theorem evaluate_restarts (c : Ctx) (h : HandedFrame) (w : Work) :
    Restarted
      (fun u => match u with
        | .silence => true
        | .defrost => (w.evaluate c h).bay.defrost.state != w.bay.defrost.state
        | .door => (w.evaluate c h).bay.door.state != w.bay.door.state && w.bay.door.state != .openLong) w
      (w.evaluate c h) := by
  have h1 := storeStage_restarts c h w
  obtain ⟨hd1, ho1⟩ := storeStage_states c h w
  obtain ⟨hw2, hh2, hd2, ho2⟩ := fuelStage_keeps (w.storeStage c h)
  have h3 := DefrostPaired.after hw2 hh2 (congrArg DefrostRecord.state hd2) (defrostStage_paired c (w.storeStage c h).fuelStage)
  have ho3 := defrostStage_door c (w.storeStage c h).fuelStage
  have h4 := doorStage_restarts (w.storeStage c h).fuelStage.bay.defrost.state ((w.storeStage c h).fuelStage.defrostStage c)
  have hd4 := doorStage_defrost (w.storeStage c h).fuelStage.bay.defrost.state ((w.storeStage c h).fuelStage.defrostStage c)
  have heval : w.evaluate c h =
      ((w.storeStage c h).fuelStage.defrostStage c).doorStage (w.storeStage c h).fuelStage.bay.defrost.state := rfl
  rw [← heval] at h4 hd4
  rw [ho3, ho2, ho1] at h4
  unfold DefrostPaired at h3
  rw [← hd4, hd1] at h3
  refine ((h1.trans h3).trans h4).congr fun u => ?_
  cases u with
  | silence => rfl
  | defrost => exact (Bool.or_false _).trans (Bool.false_or _)
  | door => rfl

end Sys2Proof.Machine

/-! PROOFS. O24: the expiries an expiry's own change makes stale, and the turn of each waiting event. -/

namespace Sys2Proof.Machine

/-! ## Marking stale, as O24 writes it -/

/-- The statement's marking of one timer's expiries is `BayEvent.markStale`. -/
theorem eq_markStale {t : BayTimer} {mark : BayEvent → BayEvent}
    (hexpiry : ∀ u stale, mark (.expiry u stale) = .expiry u (stale || decide (u = t))) (hrev : mark .revocation = .revocation)
    (hhand : mark .handOffFrame = .handOffFrame) (hdeferred : ∀ h, mark (.deferredFrame h) = .deferredFrame h)
    (hcommand : mark .command = .command) : mark = BayEvent.markStale t := by
  funext ev
  cases ev with
  | expiry u stale => rw [hexpiry]; cases u <;> cases t <;> rfl
  | revocation => exact hrev
  | handOffFrame => exact hhand
  | deferredFrame h => exact hdeferred h
  | command => exact hcommand

theorem setTimer_timer_self (e : BayEntry) (t : BayTimer) (x : Timer) : (e.setTimer t x).timer t = x := by
  cases t <;> rfl

theorem setTimer_timer_ne (e : BayEntry) {t u : BayTimer} (h : u ≠ t) (x : Timer) :
    (e.setTimer t x).timer u = e.timer u := by
  cases t <;> cases u <;> simp [BayEntry.setTimer, BayEntry.putTimer, BayEntry.timer, BayEntry.markStale] at h ⊢

theorem setTimer_lists (e : BayEntry) (t : BayTimer) (x : Timer) :
    (e.setTimer t x).waiting = e.waiting.map (BayEvent.markStale t)
      ∧ (e.setTimer t x).held = e.held.map (BayEvent.markStale t) := by
  cases t <;> exact ⟨rfl, rfl⟩

/-! ## The change of an expiry -/

/-- Routing the power restarts the defrost timer or none. -/
theorem routePower_restarts (c : Ctx) (w : Work) :
    Restarted (fun _ => false) w (w.routePower c) ∨ Restarted (fun u => u == .defrost) w (w.routePower c) := by
  unfold Work.routePower
  split
  · exact .inl (.none rfl rfl)
  · split
    · exact .inr (.one rfl rfl)
    · exact .inl (.none rfl rfl)

theorem enterDue_restarts (c : Ctx) (w : Work) : Restarted (fun u => u == .defrost) w (w.enterDue c) := by
  rcases routePower_restarts c (w.moveTo c.params .due) with h | h
  · exact ((moveTo_restarts c.params .due w).trans h).congr fun u => Bool.or_false _
  · exact ((moveTo_restarts c.params .due w).trans h).congr fun u => Bool.or_self _

/-- An expiry's own change restarts or stops its timer (R75, R99-R102, R144). -/
theorem expires_restarts (c : Ctx) (t : BayTimer) {w : Work}
    (h : t = .defrost → w.bay.defrost.state ≠ .idle ∧ w.bay.defrost.state ≠ .due ∧ w.bay.defrost.state ≠ .self) :
    Restarted (fun u => u == t) w (w.expires c t) := by
  have hmove (new : DefrostState) {w1 : Work} (hw : w1.bay.waiting = w.bay.waiting) (hh : w1.bay.held = w.bay.held) :
      Restarted (fun u => u == .defrost) w (w1.moveTo c.params new) :=
    ((Restarted.none hw hh).trans (moveTo_restarts c.params new w1)).congr fun u => Bool.false_or _
  cases t with
  | silence => exact .one rfl rfl
  | door => exact .one rfl rfl
  | defrost =>
    obtain ⟨hidle, hdue, hself⟩ := h rfl
    cases hs : w.bay.defrost.state with
    | idle => exact absurd hs hidle
    | due => exact absurd hs hdue
    | self => exact absurd hs hself
    | ordered =>
      have hexp : w.expires c .defrost = w.startWindowExpires c := by simp only [Work.expires, hs]
      rw [hexp]
      unfold Work.startWindowExpires
      simp only []
      split
      · have hcounted : Restarted (fun _ => false) w (w.defrost { w.bay.defrost with attempts := w.bay.defrost.attempts + 1 }) :=
          .none rfl rfl
        exact (hcounted.trans (enterDue_restarts c _)).congr fun u => Bool.false_or _
      · exact hmove .idle rfl rfl
    | running =>
      have hexp : w.expires c .defrost = w.maxDefrostExpires c := by simp only [Work.expires, hs]
      rw [hexp]
      exact ⟨(moveTo_restarts c.params .stopping w).waiting, (moveTo_restarts c.params .stopping w).held⟩
    | stopping =>
      have hexp : w.expires c .defrost = w.stopWindowExpires c := by simp only [Work.expires, hs]
      rw [hexp]
      exact hmove .self rfl rfl
    | draining =>
      have hexp : w.expires c .defrost = w.drainExpires c := by simp only [Work.expires, hs]
      rw [hexp]
      exact hmove .idle rfl rfl

/-- UNMAP_TAG restarts every timer: it stops all three (R77). -/
theorem allStale_eq_restart (e : BayEntry) :
    e.allStale.waiting = e.waiting.map (BayEvent.restart fun _ => true)
      ∧ e.allStale.held = e.held.map (BayEvent.restart fun _ => true) := by
  have hall (ev : BayEvent) :
      ((ev.markStale .silence).markStale .defrost).markStale .door = ev.restart fun _ => true := by
    cases ev with
    | expiry u stale => cases u <;> cases stale <;> rfl
    | _ => rfl
  simp only [BayEntry.allStale, BayEntry.markStale, List.map_map]
  exact ⟨List.map_congr_left fun ev _ => hall ev, List.map_congr_left fun ev _ => hall ev⟩

/-! ## The turn of an event that is not a command (R67, R72, R115) -/

section
variable {b : BayNo} {s : State} {ev : BayEvent} {more : List BayEvent}

theorem turn_of_kept (h : (s.bay b).inFlight = true ∨ s.locked b = true ∨ (s.bay b).waiting = []) : turn b s = s := by
  rcases h with h | h | h
  · exact if_pos (by rw [h]; rfl)
  · exact if_pos (by rw [h, Bool.or_true])
  · exact turn_of_idle h

theorem turn_of_update (hf : (s.bay b).inFlight = false) (hl : s.locked b = false) (hw : (s.bay b).waiting = ev :: more)
    {g : Work → Work} {n : State} (hs : startEvent b ev (s.setWaiting b more) = update b g n) : turn b s = update b g n :=
  turn_begins hf hl hw hs (update_inFlight b g n)

theorem turn_of_frame (hf : (s.bay b).inFlight = false) (hl : s.locked b = false) (hw : (s.bay b).waiting = ev :: more)
    {h : HandedFrame} {n : State} (hs : startEvent b ev (s.setWaiting b more) = meetFrame b h n)
    (hn : n.bay b = (s.setWaiting b more).bay b) (hnl : n.locked b = s.locked b) :
    ((s.bay b).occupied = true ∧ (s.bay b).radio = some h.radio → turn b s = update b (Work.evaluate (n.ctx b) h) n)
      ∧ (¬ ((s.bay b).occupied = true ∧ (s.bay b).radio = some h.radio) → turn b s = turn b n) := by
  have hbay : n.bay b = { s.bay b with waiting := more } := hn.trans (setBay_bay_self s b _)
  have hocc : (n.bay b).occupied = (s.bay b).occupied := by rw [hbay]
  have hradio : (n.bay b).radio = (s.bay b).radio := by rw [hbay]
  refine ⟨fun hfit => ?_, fun hfit => ?_⟩
  · rw [← hocc, ← hradio] at hfit
    exact turn_of_update hf hl hw (hs.trans (meetFrame_fits hfit))
  · rw [← hocc, ← hradio] at hfit
    exact turn_passes hf hl hw (hs.trans (meetFrame_misfit hfit)) hn hnl

end

/-! ## The turn of the current command, taken -/

/-- The reports and order changes of a command whose change is `g`. -/
theorem beginCommand_of_work {b : BayNo} {w : Work} {s : State} {e : BayEntry} {reports : List Report}
    {tells : List OrderTell} {q : Sources} (hw : w = ⟨e, reports, tells, []⟩)
    (hq : ordersTold b s.clock.time tells s.sources = q) :
    beginCommand b w false s =
      feederReports b reports { updateBegun (s.setProgress (.updating b)) b e false with sources := q } := by
  have htold : toldOf b w s = q := by
    rw [toldOf_eq, hw]
    exact hq
  rw [beginCommand_begun, htold, hw]

section
variable {b : BayNo} {cmd : Command} {s : State}

theorem turnCancel_due (ho : (s.bay b).occupied = true) (hd : (s.bay b).defrost.state = .due) :
    turnCancelDefrost b cmd s =
      feederReports b (if (s.bay b).defrost.reason = .queued then [.leaveQueue (s.bay b).feeder] else [])
        (updateBegun (s.setProgress (.updating b)) b
          { (copied s b).markStale .defrost with
            defrost :=
              { (s.bay b).defrost with
                state := .idle, reason := .queued, attempts := 0, iceCount := 0, grantFeeder := none, timer := .stopped,
                lastEnd := some s.clock.time } } false) := by
  rw [turnCancelDefrost_taken ho (by rw [hd]; rfl)]
  exact beginCommand_of_work (cancel_due (c := s.ctx b) (w := startWork b s) hd) rfl

theorem turnCancel_unposted (ho : (s.bay b).occupied = true) {f : Option FeederNo}
    (hd : (s.bay b).defrost.state = .ordered) (hp : (s.bay b).defrost.pending = some ⟨.start, f⟩) :
    turnCancelDefrost b cmd s =
      feederReports b (releaseReport (s.bay b).defrost)
        { updateBegun (s.setProgress (.updating b)) b
            { (copied s b).markStale .defrost with
              defrost :=
                { (s.bay b).defrost with
                  state := .idle, attempts := 0, iceCount := 0, grantFeeder := none, timer := .stopped, pending := none,
                  lastEnd := some s.clock.time } } false with
          sources := { s.sources with orders := s.sources.orders.filter fun x => x.1 != b } } := by
  rw [turnCancelDefrost_taken ho (by rw [hd]; rfl)]
  exact beginCommand_of_work (cancel_unposted (c := s.ctx b) (w := startWork b s) hd hp) rfl

theorem turnCancel_stopping (ho : (s.bay b).occupied = true)
    (hd : ((s.bay b).defrost.state = .ordered ∧ ∀ f, (s.bay b).defrost.pending ≠ some ⟨.start, f⟩)
      ∨ (s.bay b).defrost.state = .running) :
    turnCancelDefrost b cmd s =
      { updateBegun (s.setProgress (.updating b)) b
          { (copied s b).markStale .defrost with
            defrost :=
              { (s.bay b).defrost with
                state := .stopping, timer := .running s.params.stopWindow s.params.stopWindow,
                orderNumber := nextOrderNumber (s.bay b).defrost.orderNumber, lastKind := some .stop,
                pending := some ⟨.stop, (s.bay b).defrost.grantFeeder⟩, lastEnd := some s.clock.time } } false with
        sources := s.sources.orderPends b s.clock.time } := by
  have hcancellable : (s.bay b).defrost.state.cancellable = true := by
    rcases hd with ⟨hd, -⟩ | hd <;> (rw [hd]; rfl)
  rw [turnCancelDefrost_taken ho hcancellable]
  exact beginCommand_of_work (cancel_stopping (c := s.ctx b) (w := startWork b s) hd) rfl

theorem turnCancel_self (ho : (s.bay b).occupied = true) (hd : (s.bay b).defrost.state = .self) :
    turnCancelDefrost b cmd s =
      { updateBegun (s.setProgress (.updating b)) b
          { copied s b with
            defrost :=
              { (s.bay b).defrost with
                lastEnd := some s.clock.time, orderNumber := nextOrderNumber (s.bay b).defrost.orderNumber,
                lastKind := some .stop, pending := some ⟨.stop, none⟩ } } false with
        sources := s.sources.orderPends b s.clock.time } := by
  rw [turnCancelDefrost_taken ho (by rw [hd]; rfl)]
  exact beginCommand_of_work (cancel_self (c := s.ctx b) (w := startWork b s) hd) rfl
end

/-- Settles O24: `turn_begins` and `turn_passes` for each kind of event, and the lists each change leaves. -/
theorem waitingEventsAreJudgedAtTheirTurn : Obligations.WaitingEventsAreJudgedAtTheirTurn := by
  unfold Obligations.WaitingEventsAreJudgedAtTheirTurn
  refine ⟨?_, fun b s => ⟨turn_of_kept, ?_⟩, ?_, ?_, fun c t w h => ?_, ?_⟩
  · intro e t x mark
    have hmark : mark = BayEvent.markStale t := eq_markStale (fun _ _ => rfl) rfl rfl (fun _ => rfl) rfl
    rw [hmark]
    exact ⟨rfl, (setTimer_lists e t x).1, (setTimer_lists e t x).2, setTimer_timer_self e t x,
      fun u hu => setTimer_timer_ne e hu x⟩
  · intro ev more hf hl hw next begun fits
    refine ⟨fun t hev => ?_, fun t hev => ?_, fun h hev => ?_, fun h n hev hh hn => ?_, fun hev => ?_⟩
    · subst hev
      exact turn_passes hf hl hw (t := next) rfl rfl rfl
    · subst hev
      exact (turn_of_update hf hl hw (n := next) rfl).trans (update_begun b _ next)
    · subst hev
      obtain ⟨htaken, hpassed⟩ := turn_of_frame hf hl hw (h := h) (n := next) rfl rfl rfl
      exact ⟨fun hfit => (htaken hfit).trans (update_begun b _ next), hpassed⟩
    · subst hev
      have hstart : startEvent b .handOffFrame (s.setWaiting b more) = meetFrame b h n := by
        have hh' : (s.setWaiting b more).link.handOff = some h := hh
        simp only [startEvent, hh']
        rw [hn]
        rfl
      obtain ⟨htaken, hpassed⟩ := turn_of_frame hf hl hw hstart (by rw [hn]; rfl) (by rw [hn]; rfl)
      refine ⟨fun hfit => (htaken hfit).trans ?_, hpassed⟩
      rw [update_begun, hn]
      rfl
    · subst hev
      exact (turn_of_update hf hl hw (g := id) (n := next) rfl).trans (update_begun b _ next)
  · intro b cmd more s hf hl hw hc next e stale allStale d radio limit elapsed resting begun cancelled
    have hbegins {code : Word} {t : State} (hcode : cmd.code = code) (hs : turnOf code.toNat b cmd next = t)
        (ht : (t.bay b).inFlight = true) : turn b s = t :=
      turn_command_begins hf hl hw hc (by rw [hcode]; exact hs) ht
    have hbegun (e : BayEntry) (full : Bool) : ((begun e full).bay b).inFlight = true := updateBegun_inFlight _ b e full
    refine ⟨fun h => ?_, fun unknown tags hcode ho hn hu hu' => ?_, fun hcode ho => ?_, fun on hcode ho hon => ?_,
      fun e' reports q hcode ho hd hr => ?_, fun hcode ho => ?_, fun f hcode ho hd harg => ?_⟩
    · refine turn_passes hf hl hw ?_ rfl rfl
      exact ((turnCommand_current (s := next) hc).trans (turnOf_refused h)).trans (finish_of_current (s := next) hc .badState)
    · exact hbegins hcode (turnMapTag_taken (s := next) ho hn ⟨hu', hu⟩) (hbegun _ true)
    · exact hbegins hcode (turnUnmapTag_taken (s := next) ho) (reports_inFlight _ (hbegun _ true))
    · have hb : (cmd.b == 1) = on := by rw [hon, beq_eq_decide]
      have hlimit : limit = (next.bay b).limitFor on := by
        rw [hon]
        unfold BayEntry.limitFor
        simp only [decide_eq_true_eq]
        rfl
      rw [hlimit]
      exact ⟨fun h => hbegins hcode (turnSetLoading_only (s := next) ho hb h) (hbegun _ false),
        fun hne hopen hle => hbegins hcode (turnSetLoading_passed (s := next) ho hb hne hopen hle) (hbegun _ false),
        fun hne hlt hdoor => hbegins hcode (turnSetLoading_within (s := next) ho hb hne hlt hdoor) (hbegun _ false)⟩
    · exact hbegins hcode (turnForceDefrost_taken (cmd := cmd) (s := next) ho hd hr) (reports_inFlight _ (hbegun _ false))
    · exact ⟨fun hd => hbegins hcode (turnCancel_due (cmd := cmd) (s := next) ho hd) (reports_inFlight _ (hbegun _ false)),
        fun f hd hp => hbegins hcode (turnCancel_unposted (cmd := cmd) (s := next) ho hd hp) (reports_inFlight _ (hbegun _ false)),
        fun hd => hbegins hcode (turnCancel_stopping (cmd := cmd) (s := next) ho hd) (hbegun _ false),
        fun hd => hbegins hcode (turnCancel_self (cmd := cmd) (s := next) ho hd) (hbegun _ false)⟩
    · exact hbegins hcode (turnAssignFeeder_taken (cmd := cmd) (s := next) ho hd harg) (hbegun _ false)
  · intro c h w w' hw' restarted mark
    have hmark : mark = BayEvent.restart restarted := by
      funext ev
      cases ev <;> rfl
    have hevaluate := evaluate_restarts c h w
    subst hw'
    rw [hmark]
    exact ⟨(hevaluate.congr fun u => by cases u <;> rfl).waiting, (hevaluate.congr fun u => by cases u <;> rfl).held⟩
  · obtain ⟨hw, hh⟩ := expires_restarts c t h
    rw [← markStale_eq_restart] at hw hh
    exact ⟨hw, hh⟩
  · intro w allStale
    obtain ⟨tells, hunmap, -⟩ := unmapTag_eq w
    have hall : allStale = BayEvent.restart fun _ => true := by
      funext ev
      cases ev with
      | expiry u stale => exact congrArg (BayEvent.expiry u) (Bool.or_true stale).symm
      | _ => rfl
    rw [hunmap, hall]
    exact allStale_eq_restart w.bay

end Sys2Proof.Machine

/-! PROOFS. O28, O29: the grant of the memory port (R16) and the pass-through burst (R9, R12, R176). -/

namespace Sys2Proof.Machine

/-! ## Events of a live part -/

theorem happen_of_occurs {s : State} {c : State → Bool} {f : State → State} (h : c s = true) :
    happen c f s = settle (f s) := if_pos h

theorem event_occurs {s : State} {c : State → Bool} {f : State → State} (h : Live s) (hc : c s = true) :
    event s c f = .next (settle (f s)) := (event_of_live h).trans (congrArg _ (happen_of_occurs hc))

theorem event_idles {s : State} {c : State → Bool} {f : State → State} (h : Live s) (hc : c s = false) :
    event s c f = .next s := (event_of_live h).trans (congrArg _ (if_neg (by rw [hc]; decide)))

theorem holdsPort_iff (s : State) (q : Requester) :
    s.holdsPort q = true ↔ s.arbiter.granted = some q ∧ s.presents q = true := by
  simp [State.holdsPort]

theorem holdsPort_of_not_granted {s : State} {q : Requester} (h : s.arbiter.granted ≠ some q) : s.holdsPort q = false :=
  Bool.eq_false_iff.2 fun hp => h ((holdsPort_iff s q).1 hp).1

theorem blockPresented_iff (s : State) : s.blockPresented = true ↔ ∃ n ws, s.status.presented = some (.block n ws) := by
  unfold State.blockPresented
  split
  · rename_i n ws h
    simp [h]
  · rename_i h
    simpa using fun n ws hp => h n ws hp

/-! ## The grant (R16; log 5) -/

/-- The five requesters, searched from `q`. -/
theorem searchFrom_eq (q : Requester) :
    searchFrom q =
      match q with
      | .passThrough => [.passThrough, .record, .notice, .status, .fetch]
      | .record => [.record, .notice, .status, .fetch, .passThrough]
      | .notice => [.notice, .status, .fetch, .passThrough, .record]
      | .status => [.status, .fetch, .passThrough, .record, .notice]
      | .fetch => [.fetch, .passThrough, .record, .notice, .status] := by
  cases q <;> rfl

theorem nextGrant_of_first {s : State} {q : Requester} {before after : List Requester}
    (h : searchFrom s.arbiter.start = before ++ q :: after) (hq : s.presents q = true)
    (hbefore : ∀ p ∈ before, s.presents p = false) : s.nextGrant = some q := by
  unfold State.nextGrant
  rw [h, List.find?_append, List.find?_eq_none.2 fun p hp => by rw [hbefore p hp]; decide, Option.none_or,
    List.find?_cons_of_pos hq]

theorem nextGrant_of_none {s : State} (h : ∀ q, s.presents q = false) : s.nextGrant = none :=
  List.find?_eq_none.2 fun q _ => by rw [h q]; decide

theorem exec_memoryPortGrant {s : State} {q : Requester} (hs : Live s) (hfree : s.arbiter.granted = none)
    (hq : s.nextGrant = some q) : exec .memoryPortGrant s = .next (settle { s with arbiter := ⟨q.next, some q⟩ }) := by
  have hexec : exec .memoryPortGrant s = execMemoryPortGrant s := rfl
  rw [hexec]
  refine (event_occurs hs ?_).trans ?_
  · rw [hfree, hq]
    rfl
  · simp only [hq]
    rfl

/-- Settles O28: the search finds the first requester that presents, and every completion needs the grant. -/
theorem portGrantIsRoundRobin : Obligations.PortGrantIsRoundRobin := by
  unfold Obligations.PortGrantIsRoundRobin
  refine ⟨?_, fun s hs => ?_⟩
  · intro s hs order
    have horder : order = searchFrom s.arbiter.start := (searchFrom_eq _).symm
    refine ⟨fun q before after hfree ho hq hbefore => ?_, fun h => ?_⟩
    · rw [exec_memoryPortGrant hs hfree (nextGrant_of_first (horder.symm.trans ho) hq hbefore)]
      cases q <;> rfl
    · refine event_idles hs ?_
      rw [Bool.and_eq_false_iff]
      refine h.imp (fun h => ?_) fun h => ?_
      · rw [Option.isNone_eq_false_iff]
        exact Option.isSome_iff_ne_none.2 h
      · rw [nextGrant_of_none h]
        rfl
  · refine ⟨fun h => event_idles hs (holdsPort_of_not_granted h), fun h => event_idles hs (holdsPort_of_not_granted h),
      fun h => event_idles hs (holdsPort_of_not_granted h), fun h => event_idles hs ?_, fun h => event_idles hs ?_,
      fun h => event_idles hs (holdsPort_of_not_granted h)⟩
    · rw [Bool.and_eq_false_iff]
      refine h.imp holdsPort_of_not_granted fun h => Bool.eq_false_iff.2 fun hp => ?_
      obtain ⟨n, ws, hp⟩ := (blockPresented_iff s).1 hp
      exact h n ws hp
    · rw [Bool.and_eq_false_iff]
      refine h.imp holdsPort_of_not_granted fun h => Bool.eq_false_iff.2 fun hp => ?_
      obtain ⟨w, hp⟩ := (resultPresented_iff s).1 hp
      exact h w hp

/-! ## Reading words (R12) -/

theorem readWords_length (m : Memory) (a n : Nat) : (m.readWords a n).length = n := by
  induction n generalizing a with
  | zero => rfl
  | succ n ih => exact congrArg (· + 1) (ih (a + 1))

theorem readWords_getElem? (m : Memory) {a n k : Nat} (hk : k < n) : (m.readWords a n)[k]? = some (m.readWord (a + k)) := by
  induction n generalizing a k with
  | zero => exact absurd hk (Nat.not_lt_zero k)
  | succ n ih =>
    cases k with
    | zero => rfl
    | succ k => exact (ih (a := a + 1) (Nat.lt_of_succ_lt_succ hk)).trans (by rw [Nat.add_right_comm]; rfl)

/-! ## The pass-through burst -/

section
variable {r : Request} {p : Path} {s : State}

theorem exec_passThroughBurstComplete (hs : Live s) (hg : s.arbiter.granted = some .passThrough)
    (ho : s.front.outstanding = some ⟨r, p⟩) :
    exec .passThroughBurstComplete s =
      .next (settle (finishRequest r (requestData s.mem r) (s.endBurst .passThrough) p)) := by
  have hports : s.holdsPort .passThrough = true := (holdsPort_iff s _).2 ⟨hg, by simp only [State.presents, ho, Option.isSome_some]⟩
  refine (event_occurs hs hports).trans ?_
  simp only [ho]

/-- The end of the burst of the outstanding request (R12). -/
theorem endBurst_passThrough (ho : s.front.outstanding = some ⟨r, p⟩) :
    s.endBurst .passThrough =
      { s with
        mem := s.mem.writeWords (requestWrites r).1 (requestWrites r).2
        arbiter := ⟨s.arbiter.start, none⟩ } := by
  simp only [State.endBurst, State.burstWritten, State.burst, ho, Option.map_some]

theorem requestWord_of_write {mask : Mask} {v : Word} {rest : List (Mask × Word)} (h : r.access = .write ((mask, v) :: rest)) :
    requestWord r = v := by
  simp only [requestWord, h]

theorem requestData_of_write {m : Memory} {ws : List (Mask × Word)} (h : r.access = .write ws) : requestData m r = [] := by
  simp only [requestData, h]
end

/-- Settles O29: `finishRequest` of each path but the bay-record read. -/
theorem passThroughBurstCompletes : Obligations.PassThroughBurstCompletes := by
  unfold Obligations.PassThroughBurstCompletes
  refine ⟨fun m a ws hm => memoryWritten_writeWords hm a ws, fun m a n => ⟨readWords_length m a n, fun k hk =>
    ⟨_, readWords_getElem? m hk, fun lane hlane => Memory.laneOf_readWord m (a + k) lane hlane⟩⟩, ?_⟩
  intro r p s hs hg ho data u
  have hdata : data = requestData s.mem r := by
    unfold requestData
    cases hr : r.access <;> simp only [data, hr]
  have hu : s.endBurst .passThrough = u := by
    rw [endBurst_passThrough ho]
    unfold requestWrites
    cases hr : r.access <;> simp only [u, hr] <;> rfl
  have hexec := exec_passThroughBurstComplete hs hg ho
  rw [hu, ← hdata] at hexec
  refine ⟨fun hp => ?_, fun mask v rest hw => ?_, fun b hp => ?_⟩
  · rw [hexec]
    rcases hp with rfl | rfl | rfl <;> rfl
  · have hnone : data = [] := hdata.trans (requestData_of_write hw)
    have hword := requestWord_of_write hw
    have hlatch {x : ArgName} {n : State} (hp : p = .argument x) (hn : u.latch x v = n) :
        exec .passThroughBurstComplete s = .next (settle (completed n r.initiator (.done []))) := by
      have hfinish : finishRequest r data u (.argument x) = (u.latch x (requestWord r)).complete r.initiator (.done data) := rfl
      rw [hexec, hp, hfinish, hword, hn, hnone]
      rfl
    exact ⟨fun hp => hlatch hp rfl, fun hp => hlatch hp rfl, fun hp => hlatch hp rfl⟩
  · rw [hexec, hp]
    rfl

end Sys2Proof.Machine

/-! PROOFS. O31-O34: what the completion of a record, notice, status and fetch burst does, and of a bay-record read's. -/

namespace Sys2Proof.Machine

/-! ## Record bursts (R66) -/

section
variable {s : State} {x : RecordBurst} {rest : List RecordBurst}

theorem exec_recordBurstComplete (hs : Live s) (hg : s.arbiter.granted = some .record) (hb : s.bursts = x :: rest) :
    exec .recordBurstComplete s =
      .next
        (settle
          (if x.ends then endUpdate x.bay (s.endBurst .record).popBurst else (s.endBurst .record).popBurst)) := by
  have hports : s.holdsPort .record = true := (holdsPort_iff s _).2 ⟨hg, by simp only [State.presents, hb]; rfl⟩
  refine (event_occurs hs hports).trans ?_
  simp only [hb]

theorem popBurst_endBurst (hb : s.bursts = x :: rest) :
    (s.endBurst .record).popBurst =
      { s with
        mem := s.mem.writeWords x.addr (fullWords x.words)
        arbiter := ⟨s.arbiter.start, none⟩
        bursts := rest } := by
  simp only [State.popBurst, State.endBurst, State.burstWritten, State.burst, hb, List.head?_cons, Option.map_some,
    List.tail_cons]
end

theorem endUpdate_eq {s t : State} {b : BayNo} (h : finishUpdating b (s.setBay b { s.bay b with inFlight := false }) = t) :
    endUpdate b s = fetchJudge (act ((turn b t).bay b).feeder (turn b t)) := by
  rw [← h]
  rfl

/-- Settles O31: `endUpdate` with the command whose update it was, or without. -/
theorem recordBurstCompletes : Obligations.RecordBurstCompletes := by
  unfold Obligations.RecordBurstCompletes
  intro x rest s hs hg hb u ended more
  have hexec := exec_recordBurstComplete hs hg hb
  have hu : (s.endBurst .record).popBurst = u := popBurst_endBurst hb
  rw [hu] at hexec
  have hended : u.setBay x.bay { u.bay x.bay with inFlight := false } = ended := rfl
  refine ⟨fun hends => ?_, fun hends hp => ?_, fun cmd hends hp hc => ?_⟩
  · rw [hexec, hends]
    rfl
  · rw [hexec, if_pos hends]
    have hfinish : finishUpdating x.bay (u.setBay x.bay { u.bay x.bay with inFlight := false }) = ended := if_neg hp
    rw [endUpdate_eq hfinish]
  · rw [hexec, if_pos hends]
    have hfinish : finishUpdating x.bay (u.setBay x.bay { u.bay x.bay with inFlight := false }) = ended.finish .ok := if_pos hp
    rw [endUpdate_eq hfinish, finish_of_current (s := ended) hc]

/-! ## Notice bursts (R152) -/

/-- Settles O32: the burst is `State.endBurst` at the slot of the producer index. -/
theorem noticeBurstAdvancesTheProducer : Obligations.NoticeBurstAdvancesTheProducer := by
  unfold Obligations.NoticeBurstAdvancesTheProducer
  intro ws s hs hg hr
  have hports : s.holdsPort .notice = true := (holdsPort_iff s _).2 ⟨hg, by simp only [State.presents, hr]; rfl⟩
  refine (event_occurs hs hports).trans ?_
  have hburst : s.burst .notice = some (s.decoder.windows.ring.base * 1024 + s.ring.producer.toNat * 4, fullWords ws) := by
    simp only [State.burst, hr, Option.map_some]
    rfl
  simp only [State.advanceProducer, State.endBurst, State.burstWritten, hburst]
  rfl

/-! ## Status bursts (R10, R167, R190, R195) -/

section
variable {s : State}

theorem endBurst_status {x : StatusBurst} (h : s.status.presented = some x) :
    s.endBurst .status =
      { s with
        mem := s.mem.writeWords (x.placed s.decoder).1 (x.placed s.decoder).2
        arbiter := ⟨s.arbiter.start, none⟩ } := by
  simp only [State.endBurst, State.burstWritten, State.burst, h, Option.map_some]

theorem holdsPort_status {x : StatusBurst} (hg : s.arbiter.granted = some .status) (h : s.status.presented = some x) :
    s.holdsPort .status = true := (holdsPort_iff s _).2 ⟨hg, by simp only [State.presents, h]; rfl⟩

theorem exec_statusBurstComplete {n : Nat} {ws : List Word} (hs : Live s) (hg : s.arbiter.granted = some .status)
    (h : s.status.presented = some (.block n ws)) :
    exec .statusBurstComplete s =
      .next (settle (((s.endBurst .status).clearPresented).afterBlock n).presentPending) := by
  have hoccurs : (s.holdsPort .status && s.blockPresented) = true := by
    rw [holdsPort_status hg h, (blockPresented_iff s).2 ⟨n, ws, h⟩]
    rfl
  refine (event_occurs hs hoccurs).trans ?_
  simp only [h]

theorem exec_resultWordComplete {w : Word} (hs : Live s) (hg : s.arbiter.granted = some .status)
    (h : s.status.presented = some (.result w)) :
    exec .resultWordComplete s = .next (settle ((s.endBurst .status).clearPresented).commandDone) := by
  have hoccurs : (s.holdsPort .status && s.resultPresented) = true := by
    rw [holdsPort_status hg h, (resultPresented_iff s).2 ⟨w, h⟩]
    rfl
  exact event_occurs hs hoccurs

/-- The third burst of a rewrite ends it; another makes the next one due. -/
theorem afterBlock_eq {n : Nat} (hn : n ≤ 3) :
    s.afterBlock n =
      { s with
        status := { s.status with rewrite := if n = 3 then none else some (n + 1) }
        pins := { s.pins with attnN := if n = 3 then !s.status.causeShown else s.pins.attnN } } := by
  unfold State.afterBlock
  by_cases h3 : n = 3
  · rw [if_neg (Nat.not_lt.2 h3.ge), if_pos h3, if_pos h3]
    rfl
  · rw [if_pos (lt_of_le_of_ne hn h3), if_neg h3, if_neg h3]
end

/-! ## The fields of a word -/

section
variable {v w lo n : Nat} {x : BitVec v} {y : BitVec w} {z : BitVec n}

/-- A field above `y` lies in `x`. -/
theorem field_above (h : x.extractLsb' (lo - w) n = z) (hlo : w ≤ lo := by decide) : (x ++ y).extractLsb' lo n = z :=
  (BitVec.extractLsb'_append_eq_of_le hlo).trans h

/-- A field below `x` lies in `y`. -/
theorem field_below (h : y.extractLsb' lo n = z) (hlo : lo + n ≤ w := by decide) : (x ++ y).extractLsb' lo n = z :=
  (BitVec.extractLsb'_append_eq_of_add_le hlo).trans h

theorem field_whole (hlo : lo = 0 := by decide) : z.extractLsb' lo n = z := by
  subst hlo
  exact BitVec.extractLsb'_eq_self
end

/-- The fields of a result word (R190). -/
theorem resultWord_fields (m : Mailbox) :
    (resultWord m).extractLsb' 24 8 = m.lastCode ∧ (resultWord m).extractLsb' 20 4 = resultCode m.lastResult
      ∧ (resultWord m).extractLsb' 16 4 = 0 ∧ (resultWord m).extractLsb' 0 16 = m.completions :=
  ⟨field_above (field_above (field_above field_whole)), field_above (field_above (field_below field_whole)),
    field_above (field_below field_whole), field_below field_whole⟩

/-- Settles O33: the block bursts, the result word burst and the layout of the result word. -/
theorem statusBurstCompletes : Obligations.StatusBurstCompletes := by
  unfold Obligations.StatusBurstCompletes
  refine ⟨?_, fun w s hs hg h => ?_, fun m => ?_⟩
  · intro n ws s hs hg h h1 hn u
    have hu : ((s.endBurst .status).clearPresented).afterBlock n = u := by
      have hplace : (StatusBurst.block n ws).placed s.decoder = (setupFirst s + 8 + 8 * n, fullWords ws) :=
        congrArg (·, _) (Nat.add_assoc _ 8 (8 * n)).symm
      rw [afterBlock_eq hn, endBurst_status h, hplace]
      rfl
    have hexec := exec_statusBurstComplete hs hg h
    rw [hu] at hexec
    refine ⟨fun hp => ?_, fun hp => ?_⟩
    · have hnone : u.presentPending = u := if_neg (by show ¬ s.status.resultPending = true; rw [hp]; decide)
      rw [hexec, hnone]
    · have hnext : u.presentPending = presentResult u := if_pos hp
      rw [hexec, hnext]
      rfl
  · rw [exec_resultWordComplete hs hg h, endBurst_status h]
    rfl
  · obtain ⟨hcode, hresult, hzero, hcount⟩ := resultWord_fields m
    refine ⟨hcode, hzero, hcount, ?_⟩
    rw [hresult]
    cases m.lastResult with
    | none => rfl
    | some r => cases r <;> rfl

end Sys2Proof.Machine

/-! PROOFS. O34: fetches, the fetcher's judgement, and a bay-record read passed to memory (R171, R173, R179). -/

namespace Sys2Proof.Machine

/-! ## Fetches (R173) -/

section
variable {s : State} {x : Fetch}

theorem exec_fetchComplete (hs : Live s) (hg : s.arbiter.granted = some .fetch) (hx : s.access.fetch = some x) :
    exec .fetchComplete s = .next (settle (finishFetch x s)) := by
  have hports : s.holdsPort .fetch = true := (holdsPort_iff s _).2 ⟨hg, by simp only [State.presents, hx]; rfl⟩
  refine (event_occurs hs hports).trans ?_
  simp only [hx]

/-- The entry's fetch as the statement has it. -/
theorem fetched_eq (s : State) (k : ReadKey) (data : List Word) :
    s.fetched k data =
      { s with
        access :=
          { s.access with
            table := s.access.table.map fun e => if e.key = k then ⟨k, .ready data s.params.reclaimTime⟩ else e } } := by
  unfold State.fetched
  simp only [beq_iff_eq]
end

/-! ## The fetcher's judgement -/

theorem fetchable_iff (s : State) (e : DelayedEntry) :
    (e.state == .queued && !s.keyInFlight e.key) = true ↔ Fetchable s e := by
  simp only [Bool.and_eq_true, beq_iff_eq, Bool.not_eq_true']
  unfold Fetchable State.keyInFlight State.keyBay
  refine and_congr_right fun _ => ?_
  cases s.decoder.windows.bayAt e.key.addr.toNat with
  | none => simp
  | some b => simp

theorem fetchJudge_busy {s : State} (h : s.access.fetch ≠ none) : fetchJudge s = s :=
  if_pos (Option.isSome_iff_ne_none.2 h)

theorem fetchJudge_free {s : State} (h : s.access.fetch = none) {found : Option DelayedEntry}
    (hf : s.access.table.find? (fun e => e.state == .queued && !s.keyInFlight e.key) = found) :
    fetchJudge s =
      found.elim s fun e => { s with access := { s.access with fetch := some ⟨e.key, false⟩ } } := by
  unfold fetchJudge
  rw [h, hf]
  cases found <;> rfl

theorem fetchJudge_none {s : State} (h : s.access.fetch = none) (hn : ∀ e ∈ s.access.table, ¬ Fetchable s e) :
    fetchJudge s = s :=
  fetchJudge_free h (List.find?_eq_none.2 fun e he => mt (fetchable_iff s e).1 (hn e he))

theorem fetchJudge_first {s : State} {e : DelayedEntry} {before after : List DelayedEntry} (h : s.access.fetch = none)
    (ht : s.access.table = before ++ e :: after) (he : Fetchable s e) (hb : ∀ y ∈ before, ¬ Fetchable s y) :
    fetchJudge s = { s with access := { s.access with fetch := some ⟨e.key, false⟩ } } := by
  refine fetchJudge_free (found := some e) h ?_
  have hnone : before.find? (fun e : DelayedEntry => e.state == .queued && !s.keyInFlight e.key) = none :=
    List.find?_eq_none.2 fun y hy => mt (fetchable_iff s y).1 (hb y hy)
  rw [ht, List.find?_append, hnone, Option.none_or]
  exact List.find?_cons_of_pos (p := fun e : DelayedEntry => e.state == .queued && !s.keyInFlight e.key) ((fetchable_iff s e).2 he)

/-! ## A bay-record read judged again -/

section
variable {r : Request} {b : BayNo} {data : List Word} {s : State}

theorem rejudgeRead_overtaken_entry (hl : r.lock = false) (hf : (s.bay b).inFlight = true) :
    rejudgeRead r b true data s = (s.addEntry (readKey r)).complete r.initiator .retry := by
  simp only [rejudgeRead, hl, hf, Bool.not_false, Bool.and_self, if_true]

theorem rejudgeRead_overtaken (h : r.lock = true ∨ (s.bay b).inFlight = false) :
    rejudgeRead r b true data s = s.complete r.initiator .retry := by
  have hc : (!r.lock && (s.bay b).inFlight) = false := by
    rw [Bool.and_eq_false_iff]
    exact h.imp_left fun h => by rw [h]; rfl
  simp only [rejudgeRead, hc, Bool.false_eq_true, if_false, if_true]

theorem rejudgeRead_unlocked (hl : r.lock = false) : rejudgeRead r b false data s = s.complete r.initiator (.done data) := by
  simp only [rejudgeRead, hl, Bool.false_eq_true, if_false]

theorem rejudgeRead_locked (hl : r.lock = true) :
    rejudgeRead r b false data s = (s.removeEntry (readKey r)).complete r.initiator (.done data) := by
  simp only [rejudgeRead, hl, Bool.false_eq_true, if_false, if_true]
end

/-- Settles O34: `finishFetch`, `fetchJudge` and `rejudgeRead` case by case. -/
theorem fetchesAndPassedReadsComplete : Obligations.FetchesAndPassedReadsComplete := by
  unfold Obligations.FetchesAndPassedReadsComplete
  refine ⟨fun x s hs hg hx => ?_, fun s => ⟨fetchJudge_busy, fetchJudge_none, fun e before after => fetchJudge_first⟩, ?_⟩
  · rw [exec_fetchComplete hs hg hx]
    have hfetched := fetched_eq (s.endBurst .fetch).clearFetch x.key (s.mem.readWords x.key.addr.toNat x.key.length)
    simp only [finishFetch, hfetched]
    cases hv : x.void <;> rfl
  · intro i a n lock b overtaken s hs hg ho u
    have hexec := exec_passThroughBurstComplete hs hg ho
    have hu : s.endBurst .passThrough = u := endBurst_passThrough ho
    rw [hu] at hexec
    refine ⟨fun hover hl hf => ?_, fun hover h => ?_, fun hover hl => ?_, fun hover hl => ?_⟩
    · subst hover hl
      rw [hexec]
      have hread := rejudgeRead_overtaken_entry (r := ⟨i, a, false, .read n⟩) (b := b) (data := s.mem.readWords a.toNat n)
        (s := u) rfl hf
      exact congrArg (fun t => Host.Outcome.next (settle t)) (hread.trans (by rw [addEntry_eq]; rfl))
    · subst hover
      rw [hexec]
      exact congrArg (fun t => Host.Outcome.next (settle t)) (rejudgeRead_overtaken (r := ⟨i, a, lock, .read n⟩) (s := u) h)
    · subst hover hl
      rw [hexec]
      exact congrArg (fun t => Host.Outcome.next (settle t)) (rejudgeRead_unlocked (r := ⟨i, a, false, .read n⟩) (s := u) rfl)
    · subst hover hl
      rw [hexec]
      exact congrArg (fun t => Host.Outcome.next (settle t)) (rejudgeRead_locked (r := ⟨i, a, true, .read n⟩) (s := u) rfl)

end Sys2Proof.Machine

/-! PROOFS. O30, O35: the check code (R31), the good frame (R32) and the layout of the bay record (R63-R65). -/

namespace Sys2Proof.Machine

/-! ## The check code -/

/-- The register after one bit, as O35 writes it. -/
theorem crcBit_eq (reg : Half) (bit : Bool) :
    crcBit reg bit = if reg.getLsbD 15 = bit then reg <<< 1 else (reg <<< 1) ^^^ 0x1021 := by
  unfold crcBit
  cases reg.getLsbD 15 <;> cases bit <;> rfl

/-- A half-word is fed from bit 15 down to bit 0. -/
theorem crcHalf_eq (reg x : Half) : crcHalf reg x = ((List.range 16).map fun k => x.getLsbD (15 - k)).foldl crcBit reg := rfl

theorem checkCode_eq_foldl (xs : List Half) :
    checkCode xs = (xs.flatMap fun x => (List.range 16).map fun k => x.getLsbD (15 - k)).foldl crcBit 0xFFFF := by
  rw [List.foldl_flatMap]
  rfl

/-- Feedback sets bit 0 of the register. -/
theorem crcBit_low (reg : Half) (bit : Bool) : (crcBit reg bit).getLsbD 0 = (reg.getLsbD 15 ^^ bit) := by
  unfold crcBit
  cases hf : (reg.getLsbD 15 ^^ bit) <;> simp

/-- One bit leaves `x` shifted up when the register was `x` shifted one place less and the bit met its own. -/
theorem crcBit_eq_shiftLeft {x reg : Half} {n : Nat} (hn : n < 16) :
    crcBit reg (x.getLsbD n) = x <<< (16 - n) ↔ reg = x <<< (16 - (n + 1)) := by
  rw [Nat.add_comm n 1, ← Nat.sub_sub]
  show _ ↔ reg = x <<< (15 - n)
  have htop : (x <<< (15 - n)).getLsbD 15 = x.getLsbD n := by
    have hidx : 15 - (15 - n) = n := by omega
    have hlt : ¬ 15 < 15 - n := by omega
    simp only [BitVec.getLsbD_shiftLeft, hidx, hlt, decide_false, Bool.not_false, Bool.and_true]
    rfl
  have hshift : (x <<< (15 - n)) <<< 1 = x <<< (16 - n) := by
    rw [← BitVec.shiftLeft_add]
    congr 1
    omega
  constructor
  · intro h
    have hlow : (x <<< (16 - n)).getLsbD 0 = false := by
      simp
      omega
    have hfeed : reg.getLsbD 15 = x.getLsbD n := by
      rw [← h, crcBit_low] at hlow
      simpa using hlow
    rw [crcBit_eq, if_pos hfeed, ← hshift] at h
    refine BitVec.eq_of_getLsbD_eq fun i hi => ?_
    by_cases h15 : i = 15
    · rw [h15, hfeed, htop]
    · have hbit := congrArg (fun y : Half => y.getLsbD (i + 1)) h
      have hin : i + 1 < 16 := by omega
      simp only [BitVec.getLsbD_shiftLeft, hin, hi, decide_true, Bool.true_and, Nat.add_sub_cancel] at hbit
      rw [BitVec.getLsbD_shiftLeft, decide_eq_true hi]
      simpa using hbit
  · intro h
    rw [crcBit_eq, h, if_pos htop, hshift]

/-- The register is 0 after `n` bits of `x` exactly when it held them at its top and nothing below. -/
theorem crcBits_eq_zero (x : Half) {n : Nat} (hn : n ≤ 16) (reg : Half) : crcBits x n reg = 0 ↔ reg = x <<< (16 - n) := by
  induction n generalizing reg with
  | zero =>
    have hzero : x <<< 16 = 0 := BitVec.shiftLeft_eq_zero (Nat.le_refl 16)
    rw [hzero]
    rfl
  | succ n ih => exact (ih (Nat.le_of_succ_le hn) _).trans (crcBit_eq_shiftLeft hn)

/-- The code behind a list, and no other half-word, leaves 0 (R31). -/
theorem checkCode_append_eq_zero (xs : List Half) (c : Half) : checkCode (xs ++ [c]) = 0 ↔ c = checkCode xs := by
  have happend : checkCode (xs ++ [c]) = crcBits c 16 (checkCode xs) := List.foldl_append
  rw [happend, crcBits_eq_zero c (Nat.le_refl 16), eq_comm]
  simp

/-! ## The good frame (R32) -/

theorem temperatureOk_iff (t : Half) : temperatureOk t = true ↔ -500 ≤ t.toInt ∧ t.toInt ≤ 500 := by
  simp [temperatureOk]

theorem fuelOk_iff (l : Half) : fuelOk l = true ↔ l.toNat ≤ 1000 ∨ l.toNat = 65535 := by
  have hall : l = 0xFFFF ↔ l.toNat = 65535 := BitVec.toNat_inj.symm
  simp only [fuelOk, Bool.or_eq_true, decide_eq_true_eq, beq_iff_eq, hall]

/-- Settles O35: the check code bit by bit, and the tests of `Frame.good`. -/
theorem frameIsGoodByItsFiveTests : Obligations.FrameIsGoodByItsFiveTests := by
  unfold Obligations.FrameIsGoodByItsFiveTests
  refine ⟨?_, ?_⟩
  · intro xs feed
    have hfeed : feed = crcBit := by
      funext reg bit
      exact (crcBit_eq reg bit).symm
    rw [hfeed]
    exact ⟨checkCode_eq_foldl xs, checkCode_append_eq_zero xs⟩
  · intro f a high low inRange
    simp only [inRange, Frame.good, Bool.and_eq_true, beq_iff_eq, temperatureOk_iff, fuelOk_iff, and_assoc]
    rfl

/-! ## The words of a bay record (R63, R64) -/

/-- The fields of word 0. -/
theorem word0_fields (b : BayNo) (e : BayEntry) {w : Word} (hw : w = e.headHalf b ++ e.recordCode b) :
    w.extractLsb' 24 8 = BitVec.ofNat 8 b.val ∧ w.extractLsb' 23 1 = flagBit e.occupied
      ∧ w.extractLsb' 22 1 = flagBit e.silent ∧ w.extractLsb' 21 1 = flagBit e.loading ∧ w.extractLsb' 19 2 = linkCode e.link
      ∧ w.extractLsb' 18 1 = flagBit e.readingHeld ∧ w.extractLsb' 16 2 = 0 := by
  subst hw
  exact ⟨field_above (field_above (field_above (field_above (field_above (field_above (field_above field_whole)))))),
    field_above (field_above (field_above (field_above (field_above (field_above (field_below field_whole)))))),
    field_above (field_above (field_above (field_above (field_above (field_below field_whole))))),
    field_above (field_above (field_above (field_above (field_below field_whole)))),
    field_above (field_above (field_above (field_below field_whole))), field_above (field_above (field_below field_whole)),
    field_above (field_below field_whole)⟩

theorem word0_halves (b : BayNo) (e : BayEntry) {w : Word} (hw : w = e.headHalf b ++ e.recordCode b) :
    w.extractLsb' 16 16 = e.headHalf b ∧ w.extractLsb' 0 16 = e.recordCode b := by
  subst hw
  exact ⟨field_above field_whole, field_below field_whole⟩

/-- The fields of word 1. -/
theorem word1_fields (e : BayEntry) :
    e.word1.extractLsb' 22 10 = e.radio.getD 0 ∧ e.word1.extractLsb' 14 8 = e.reading.seq
      ∧ e.word1.extractLsb' 6 8 = e.reading.echo ∧ e.word1.extractLsb' 5 1 = flagBit e.reading.doorOpen
      ∧ e.word1.extractLsb' 4 1 = flagBit e.reading.defrostActive ∧ e.word1.extractLsb' 3 1 = flagBit e.reading.engineRunning
      ∧ e.word1.extractLsb' 2 1 = flagBit e.reading.shorePower ∧ e.word1.extractLsb' 1 1 = e.kind.code
      ∧ e.word1.extractLsb' 0 1 = 0 :=
  ⟨field_above (field_above (field_above (field_above (field_above (field_above (field_above (field_above field_whole))))))),
    field_above (field_above (field_above (field_above (field_above (field_above (field_above (field_below field_whole))))))),
    field_above (field_above (field_above (field_above (field_above (field_above (field_below field_whole)))))),
    field_above (field_above (field_above (field_above (field_above (field_below field_whole))))),
    field_above (field_above (field_above (field_above (field_below field_whole)))),
    field_above (field_above (field_above (field_below field_whole))), field_above (field_above (field_below field_whole)),
    field_above (field_below field_whole), field_below field_whole⟩

/-- The fields of word 6. -/
theorem word6_fields (e : BayEntry) :
    e.word6.extractLsb' 24 8 = e.defrost.orderNumber ∧ e.word6.extractLsb' 21 3 = e.defrost.state.code
      ∧ e.word6.extractLsb' 18 3 = BitVec.ofNat 3 e.defrost.attempts ∧ e.word6.extractLsb' 17 1 = e.defrost.reasonCode
      ∧ e.word6.extractLsb' 15 2 = pendingCode e.defrost.pending
      ∧ e.word6.extractLsb' 11 4 = feederCode e.defrost.grantFeeder
      ∧ e.word6.extractLsb' 7 4 = BitVec.ofNat 4 e.defrost.iceCount ∧ e.word6.extractLsb' 0 7 = 0 :=
  ⟨field_above (field_above (field_above (field_above (field_above (field_above (field_above field_whole)))))),
    field_above (field_above (field_above (field_above (field_above (field_above (field_below field_whole)))))),
    field_above (field_above (field_above (field_above (field_above (field_below field_whole))))),
    field_above (field_above (field_above (field_above (field_below field_whole)))),
    field_above (field_above (field_above (field_below field_whole))), field_above (field_above (field_below field_whole)),
    field_above (field_below field_whole), field_below field_whole⟩

/-- The fields of word 7. -/
theorem word7_fields (e : BayEntry) :
    e.word7.extractLsb' 16 16 = BitVec.ofNat 16 e.defrost.timer.secondsLeft ∧ e.word7.extractLsb' 14 2 = e.fuel.state.code
      ∧ e.word7.extractLsb' 12 2 = e.door.state.code ∧ e.word7.extractLsb' 0 12 = 0 :=
  ⟨field_above (field_above (field_above field_whole)), field_above (field_above (field_below field_whole)),
    field_above (field_below field_whole), field_below field_whole⟩

/-! ## The values of the fields -/

section
variable {w : Word} {lo n k : Nat}

theorem field_toNat {z : BitVec n} (h : w.extractLsb' lo n = z) (hz : z.toNat = k) : (w.extractLsb' lo n).toNat = k := by
  rw [h, hz]

/-- A number that fits its field. -/
theorem field_ofNat (h : w.extractLsb' lo n = BitVec.ofNat n k) (hk : k < 2 ^ n) : (w.extractLsb' lo n).toNat = k :=
  field_toNat h (BitVec.toNat_ofNat k n |>.trans (Nat.mod_eq_of_lt hk))

theorem field_flag {x : Bool} (h : w.extractLsb' lo 1 = flagBit x) : (w.extractLsb' lo 1).toNat = if x then 1 else 0 := by
  rw [h]
  cases x <;> rfl

theorem field_zero (h : w.extractLsb' lo n = 0) : (w.extractLsb' lo n).toNat = 0 := by
  rw [h]
  rfl
end

theorem toNat_kindCode (k : UnitKind) : k.code.toNat = match k with | .diesel => 0 | .electric => 1 := by
  cases k <;> rfl

theorem toNat_linkCode (l : Option TrackState) :
    (linkCode l).toNat = match l with | some .hunt => 0 | some .proving => 1 | some .tracked => 2 | none => 3 := by
  cases l with
  | none => rfl
  | some t => cases t <;> rfl

theorem toNat_radio (a : Option RadioAddr) : (a.getD 0).toNat = match a with | some a => a.toNat | none => 0 := by
  cases a <;> rfl

/-- The low half of word 5 (R63). -/
theorem toNat_kindHalf (k : UnitKind) :
    (((0 : BitVec 15) ++ k.code : Half)).toNat = match k with | .diesel => 0 | .electric => 1 := by
  cases k <;> rfl

theorem toNat_defrostCode (d : DefrostState) :
    d.code.toNat =
      match d with
      | .idle => 0
      | .due => 1
      | .ordered => 2
      | .running => 3
      | .stopping => 4
      | .draining => 5
      | .self => 6 := by
  cases d <;> rfl

theorem toNat_reasonCode (d : DefrostRecord) : d.reasonCode.toNat = if d.state = .due ∧ d.reason = .held then 1 else 0 := by
  unfold DefrostRecord.reasonCode
  split <;> rfl

theorem toNat_pendingCode (o : Option PendingOrder) :
    (pendingCode o).toNat = match o with | none => 0 | some ⟨.start, _⟩ => 1 | some ⟨.stop, _⟩ => 2 := by
  cases o with
  | none => rfl
  | some o =>
    obtain ⟨k, f⟩ := o
    cases k <;> rfl

theorem toNat_feederCode (f : Option FeederNo) : (feederCode f).toNat = match f with | some f => f.val | none => 15 := by
  cases f with
  | none => rfl
  | some f => exact (BitVec.toNat_ofNat f.val 4).trans (Nat.mod_eq_of_lt (f.isLt.trans (by decide)))

theorem toNat_fuelCode (x : FuelState) :
    x.code.toNat = match x with | .normal => 0 | .low => 1 | .critical => 2 | .noSensor => 3 := by
  cases x <;> rfl

theorem toNat_doorCode (x : DoorState) : x.code.toNat = match x with | .closed => 0 | .isOpen => 1 | .openLong => 2 := by
  cases x <;> rfl

theorem halves (x y : Half) {w : Word} (h : w = x ++ y) : w.extractLsb' 16 16 = x ∧ w.extractLsb' 0 16 = y := by
  subst h
  exact ⟨field_above field_whole, field_below field_whole⟩

theorem word5_halves (e : BayEntry) {w : Word} (h : w = e.reading.fuel ++ (0 : BitVec 15) ++ e.kind.code) :
    w.extractLsb' 16 16 = e.reading.fuel ∧ w.extractLsb' 0 16 = (0 : BitVec 15) ++ e.kind.code :=
  halves e.reading.fuel ((0 : BitVec 15) ++ e.kind.code) (h.trans BitVec.append_assoc)

/-- Settles O30: the fields of each word, and `checkCode_append_eq_zero` for the record check code. -/
theorem bayRecordHoldsItsLayout : Obligations.BayRecordHoldsItsLayout := by
  unfold Obligations.BayRecordHoldsItsLayout
  intro b e ws hws d word field flag high low left covered
  obtain ⟨hbay, hocc, hsilent, hload, hlink, hheld, hzero0⟩ := word0_fields b e rfl
  obtain ⟨hradio, hseq, hecho, hdoor, hactive, hengine, hshore, hkind, hzero1⟩ := word1_fields e
  obtain ⟨hnumber, hdefrost, hattempts, hreason, hpending, hgrant, hice, hzero6⟩ := word6_fields e
  obtain ⟨hleft, hfuel, hdoorState, hzero7⟩ := word7_fields e
  obtain ⟨hhead, hcode⟩ := word0_halves b e rfl
  obtain ⟨hreturn, hsupply⟩ := halves e.reading.returnAir e.reading.supplyAir rfl
  obtain ⟨hcoil, hsetpoint⟩ := halves e.reading.coil e.reading.setpoint rfl
  have hcovered : covered = e.headHalf b :: e.bodyWords.flatMap fun w => [highHalf w, lowHalf w] := by
    subst hws
    exact congrArg (· :: _) hhead
  have hlow : low 0 = checkCode covered := by
    rw [hcovered]
    subst hws
    exact hcode
  have hleftEq : left = e.defrost.timer.secondsLeft := by
    show (match e.defrost.timer with | .running left _ => left | .stopped | .expired _ => 0) = _
    cases e.defrost.timer <;> rfl
  obtain ⟨hfuelLevel, hfuelKind⟩ := word5_halves e rfl
  obtain ⟨hopens, hbaseline⟩ := halves e.door.opens ((e.fuel.baseline.map Prod.fst).getD 0xFFFF) rfl
  have hbaselineLevel :
      (e.fuel.baseline.map Prod.fst).getD 0xFFFF = match e.fuel.baseline with | some (level, _) => level | none => 65535 := by
    cases e.fuel.baseline <;> rfl
  have hbaselineTime :
      (e.fuel.baseline.map Prod.snd).getD 0 = match e.fuel.baseline with | some (_, time) => time | none => 0 := by
    cases e.fuel.baseline <;> rfl
  have hlastEnd : e.defrost.lastEnd.getD 0xFFFFFFFF = match e.defrost.lastEnd with | some t => t | none => 0xFFFFFFFF := by
    cases e.defrost.lastEnd <;> rfl
  rw [hlow]
  refine ⟨hws ▸ rfl, ?_⟩
  subst hws
  exact ⟨field_ofNat hbay (b.isLt.trans (by decide)), field_flag hocc, field_flag hsilent, field_flag hload,
    field_toNat hlink (toNat_linkCode e.link), field_flag hheld, field_zero hzero0, field_toNat hradio (toNat_radio e.radio),
    field_toNat hseq rfl, field_toNat hecho rfl, field_flag hdoor, field_flag hactive, field_flag hengine, field_flag hshore,
    field_toNat hkind (toNat_kindCode e.kind), field_zero hzero1, rfl, hreturn, hsupply, hcoil, hsetpoint, hfuelLevel,
    field_toNat hfuelKind (toNat_kindHalf e.kind), field_toNat hnumber rfl, field_toNat hdefrost (toNat_defrostCode d.state),
    fun h => field_ofNat hattempts (Nat.lt_succ_of_le h), field_toNat hreason (toNat_reasonCode d),
    field_toNat hpending (toNat_pendingCode d.pending), field_toNat hgrant (toNat_feederCode d.grantFeeder),
    fun h => field_ofNat hice (h.trans_lt (by decide)), field_zero hzero6,
    fun h => hleftEq ▸ field_ofNat hleft (Nat.lt_succ_of_le (hleftEq ▸ h)), field_toNat hfuel (toNat_fuelCode e.fuel.state),
    field_toNat hdoorState (toNat_doorCode e.door.state), field_zero hzero7, hlastEnd, rfl, hopens,
    hbaseline.trans hbaselineLevel, hbaselineTime, rfl, rfl, (checkCode_append_eq_zero covered _).2 rfl⟩

end Sys2Proof.Machine

/-! PROOFS. O52: the layout of the status block (R196). -/

namespace Sys2Proof.Machine

/-! ## The words of the status block -/

theorem statusWord0_fields (s : State) :
    (statusWord0 s).extractLsb' 16 16 = s.status.generation ∧ (statusWord0 s).extractLsb' 14 2 = s.decoder.mode.code
      ∧ (statusWord0 s).extractLsb' 12 2 = s.mailbox.state.code
      ∧ (statusWord0 s).extractLsb' 8 4 = resultCode s.mailbox.lastResult
      ∧ (statusWord0 s).extractLsb' 0 8 = s.mailbox.lastCode :=
  ⟨field_above (field_above (field_above (field_above field_whole))),
    field_above (field_above (field_above (field_below field_whole))), field_above (field_above (field_below field_whole)),
    field_above (field_below field_whole), field_below field_whole⟩

theorem statusWord1_fields (s : State) :
    (statusWord1 s).extractLsb' 27 5 = BitVec.ofNat 5 s.inbox.length
      ∧ (statusWord1 s).extractLsb' 24 3 = BitVec.ofNat 3 s.access.table.length
      ∧ (statusWord1 s).extractLsb' 23 1 = flagBit s.access.lock.isSome
      ∧ (statusWord1 s).extractLsb' 20 3 = BitVec.ofNat 3 ((s.access.lock.map fun l => l.holder.val).getD 0)
      ∧ (statusWord1 s).extractLsb' 12 8 = BitVec.ofNat 8 ((s.access.lock.map fun l => l.bay.val).getD 0)
      ∧ (statusWord1 s).extractLsb' 0 12 = 0 :=
  ⟨field_above (field_above (field_above (field_above (field_above field_whole)))),
    field_above (field_above (field_above (field_above (field_below field_whole)))),
    field_above (field_above (field_above (field_below field_whole))), field_above (field_above (field_below field_whole)),
    field_above (field_below field_whole), field_below field_whole⟩

theorem statusWord3_fields (s : State) :
    (statusWord3 s).extractLsb' 24 8 = s.ring.producer ∧ (statusWord3 s).extractLsb' 16 8 = s.ring.consumer
      ∧ (statusWord3 s).extractLsb' 15 1 = flagBit (causeCommandDone s)
      ∧ (statusWord3 s).extractLsb' 14 1 = flagBit (causeRing s) ∧ (statusWord3 s).extractLsb' 13 1 = flagBit (causeFeeder s)
      ∧ (statusWord3 s).extractLsb' 11 2 = firstCause s ∧ (statusWord3 s).extractLsb' 0 11 = 0 :=
  ⟨field_above (field_above (field_above (field_above (field_above (field_above field_whole))))),
    field_above (field_above (field_above (field_above (field_above (field_below field_whole))))),
    field_above (field_above (field_above (field_above (field_below field_whole)))),
    field_above (field_above (field_above (field_below field_whole))), field_above (field_above (field_below field_whole)),
    field_above (field_below field_whole), field_below field_whole⟩

theorem statusWord18_fields (s : State) :
    (statusWord18 s).extractLsb' 24 8 = BitVec.ofNat 8 s.link.tagMap.length
      ∧ (statusWord18 s).extractLsb' 19 5 = BitVec.ofNat 5 (s.link.unknown.toList.countP Option.isSome)
      ∧ (statusWord18 s).extractLsb' 17 2 = s.decoder.memSize ∧ (statusWord18 s).extractLsb' 0 17 = 0 :=
  ⟨field_above (field_above (field_above field_whole)), field_above (field_above (field_below field_whole)),
    field_above (field_below field_whole), field_below field_whole⟩

theorem feederWord_fields (f : Feeder) :
    f.word.extractLsb' 30 2 = f.state.code ∧ f.word.extractLsb' 26 4 = BitVec.ofNat 4 f.capacity
      ∧ f.word.extractLsb' 22 4 = BitVec.ofNat 4 f.grants.length ∧ f.word.extractLsb' 14 8 = BitVec.ofNat 8 f.selfCount
      ∧ f.word.extractLsb' 6 8 = BitVec.ofNat 8 f.queue.length ∧ f.word.extractLsb' 0 6 = 0 :=
  ⟨field_above (field_above (field_above (field_above (field_above field_whole)))),
    field_above (field_above (field_above (field_above (field_below field_whole)))),
    field_above (field_above (field_above (field_below field_whole))), field_above (field_above (field_below field_whole)),
    field_above (field_below field_whole), field_below field_whole⟩

/-! ## The values of the fields -/

theorem toNat_modeCode (m : Mode) : m.code.toNat = match m with | .pass => 0 | .run => 1 | .halted => 2 := by
  cases m <;> rfl

theorem toNat_mailboxCode (m : MailboxState) : m.code.toNat = match m with | .idle => 0 | .busy => 1 | .done => 2 := by
  cases m <;> rfl

theorem toNat_resultCode (r : Option Result) :
    (resultCode r).toNat =
      match r with
      | none => 0
      | some .ok => 1
      | some .badArg => 2
      | some .badState => 3
      | some .notFound => 4 := by
  cases r with
  | none => rfl
  | some r => cases r <;> rfl

theorem toNat_feederStateCode (x : FeederState) :
    x.code.toNat = match x with | .active => 0 | .tripped => 1 | .restoring => 2 := by
  cases x <;> rfl

/-! ## The causes (R166) -/

theorem causeCommandDone_iff (s : State) : causeCommandDone s = true ↔ s.mailbox.state = .done := beq_iff_eq

theorem causeRing_eq_false (s : State) : causeRing s = false ↔ s.ring.producer = s.ring.consumer := bne_eq_false_iff_eq

theorem causeFeeder_eq_false (s : State) : causeFeeder s = false ↔ ∀ f, (s.feeder f).state = .active := by
  unfold causeFeeder
  rw [Vector.any_eq_false]
  have hbne (x : Feeder) : ¬ (x.state != .active) = true ↔ x.state = .active := by simp
  exact ⟨fun h f => (hbne _).1 (h f.val f.isLt), fun h i hi => (hbne _).2 (h ⟨i, hi⟩)⟩

theorem flag_causeFeeder (s : State) :
    (if causeFeeder s then 1 else 0) = if ∀ f, (s.feeder f).state = .active then 0 else 1 := by
  by_cases h : ∀ f, (s.feeder f).state = .active
  · rw [if_pos h, (causeFeeder_eq_false s).2 h]
    rfl
  · rw [if_neg h, Bool.eq_true_of_not_eq_false (mt (causeFeeder_eq_false s).1 h)]
    rfl

theorem flag_causeRing (s : State) :
    (if causeRing s then 1 else 0) = if s.ring.producer = s.ring.consumer then 0 else 1 := by
  by_cases h : s.ring.producer = s.ring.consumer
  · rw [if_pos h, (causeRing_eq_false s).2 h]
    rfl
  · rw [if_neg h, Bool.eq_true_of_not_eq_false (mt (causeRing_eq_false s).1 h)]
    rfl

theorem toNat_firstCause (s : State) :
    (firstCause s).toNat =
      if s.mailbox.state = .done then 1
      else if s.ring.producer ≠ s.ring.consumer then 2
      else if ∀ f, (s.feeder f).state = .active then 0 else 3 := by
  unfold firstCause
  by_cases hdone : s.mailbox.state = .done
  · rw [if_pos ((causeCommandDone_iff s).2 hdone), if_pos hdone]
    rfl
  · rw [if_neg (mt (causeCommandDone_iff s).1 hdone), if_neg hdone]
    by_cases hring : s.ring.producer = s.ring.consumer
    · rw [(causeRing_eq_false s).2 hring, if_neg (not_not_intro hring)]
      by_cases hfeeder : ∀ f, (s.feeder f).state = .active
      · rw [(causeFeeder_eq_false s).2 hfeeder, if_pos hfeeder]
        rfl
      · rw [if_neg hfeeder, Bool.eq_true_of_not_eq_false (mt (causeFeeder_eq_false s).1 hfeeder)]
        rfl
    · rw [if_pos hring, Bool.eq_true_of_not_eq_false (mt (causeRing_eq_false s).1 hring)]
      rfl

/-- The words of the status block, s0 to s19. -/
def statusWords (s : State) : List Word := statusBurst s 1 ++ statusBurst s 2 ++ statusBurst s 3

theorem statusWords_feeder (s : State) (f : FeederNo) : ((statusWords s)[4 + f.val]?).getD 0 = (s.feeder f).word := by
  fin_cases f <;> rfl

/-- Settles O52: the fields of each word of the block. -/
theorem statusBlockHoldsItsLayout : Obligations.StatusBlockHoldsItsLayout := by
  unfold Obligations.StatusBlockHoldsItsLayout
  intro s ws hws field
  have hws' : ws = statusWords s := hws
  obtain ⟨hgen, hmode, hmailbox, hresult, hcode⟩ := statusWord0_fields s
  obtain ⟨hinbox, htable, hlock, hholder, hbay, hzero1⟩ := statusWord1_fields s
  obtain ⟨hproducer, hconsumer, hdone, hring, hfeeder, hfirst, hzero3⟩ := statusWord3_fields s
  obtain ⟨htags, hunknown, hmem, hzero18⟩ := statusWord18_fields s
  obtain ⟨hgen19, hzero19⟩ := halves s.status.generation (0 : BitVec 16) rfl
  have hcount : s.link.unknown.toList.countP Option.isSome < 2 ^ 5 :=
    (List.countP_le_length.trans_eq s.link.unknown.length_toList).trans_lt (by decide)
  have hdoneFlag : (if causeCommandDone s then 1 else 0) = if s.mailbox.state = .done then 1 else 0 := by
    simp only [causeCommandDone_iff]
  have hhalves (x y : Half) : ((x ++ y : Word).extractLsb' 16 16).toNat = x.toNat ∧ ((x ++ y : Word).extractLsb' 0 16).toNat = y.toNat := by
    obtain ⟨hx, hy⟩ := halves x y rfl
    exact ⟨field_toNat hx rfl, field_toNat hy rfl⟩
  refine ⟨hws' ▸ rfl, ?_⟩
  subst hws'
  refine ⟨field_toNat hgen rfl, field_toNat hgen19 rfl, field_toNat hmode (toNat_modeCode s.decoder.mode),
    field_toNat hmailbox (toNat_mailboxCode s.mailbox.state), field_toNat hresult (toNat_resultCode s.mailbox.lastResult),
    field_toNat hcode rfl, fun h => field_ofNat hinbox (h.trans_lt (by decide)),
    fun h => field_ofNat htable (h.trans_lt (by decide)), fun h => ?_, fun l h => ?_, field_zero hzero1, ?_,
    field_toNat hproducer rfl, field_toNat hconsumer rfl, (field_flag hdone).trans hdoneFlag,
    (field_flag hring).trans (flag_causeRing s), (field_flag hfeeder).trans (flag_causeFeeder s),
    field_toNat hfirst (toNat_firstCause s), field_zero hzero3, fun f => ?_,
    (hhalves _ _).1, (hhalves _ _).2, (hhalves _ _).1, (hhalves _ _).2, (hhalves _ _).1, (hhalves _ _).2,
    (hhalves _ _).1, (hhalves _ _).2, (hhalves _ _).1, (hhalves _ _).2, (hhalves _ _).1, (hhalves _ _).2,
    fun h => field_ofNat htags (h.trans_lt (by decide)), field_ofNat hunknown hcount, field_toNat hmem rfl, field_zero hzero18,
    field_zero hzero19⟩
  · rw [h] at hlock hholder hbay
    exact ⟨field_flag hlock, field_ofNat hholder (by decide), field_ofNat hbay (by decide)⟩
  · rw [h] at hlock hholder hbay
    exact ⟨field_flag hlock, field_ofNat hholder l.holder.isLt, field_ofNat hbay (l.bay.isLt.trans (by decide))⟩
  · have hwhole : s.clock.time.extractLsb' 0 32 = s.clock.time := field_whole
    exact field_toNat hwhole rfl
  · obtain ⟨hstate, hcapacity, hgrants, hself, hqueue, hzero⟩ := feederWord_fields (s.feeder f)
    have hword : ((statusWords s)[4 + f.val]?).getD 0 = (s.feeder f).word := statusWords_feeder s f
    simp only [field, hword]
    exact ⟨field_toNat hstate (toNat_feederStateCode _), fun h => field_ofNat hcapacity (h.trans_lt (by decide)),
      fun h => field_ofNat hgrants (h.trans_lt (by decide)), fun h => field_ofNat hself (h.trans_lt (by decide)),
      fun h => field_ofNat hqueue (h.trans_lt (by decide)), field_zero hzero⟩

end Sys2Proof.Machine

/-! PROOFS. O37, O38, O39: the takes in TRACKED and of unmapped frames, and a frame at its bay (R41, R45-R52, R67-R73). -/

namespace Sys2Proof.Machine

/-! ## The judgement in TRACKED (R45, R46) -/

section
variable {p : Params} {t : TagEntry} {c : Counters} {q : Seq}

theorem takeMapped_tracked (h : t.track = .tracked) (good : Bool) :
    takeMapped p t c good q = if good then takeGoodTracked t c q else takeBadTracked p t c := by
  simp only [takeMapped, h]

theorem takeGoodTracked_duplicate (h : (q - t.lastSeq).toNat = 0) : takeGoodTracked t c q = ⟨t, c.duplicate, false, none⟩ :=
  if_pos h

theorem takeGoodTracked_next (h1 : 1 ≤ (q - t.lastSeq).toNat) (h16 : (q - t.lastSeq).toNat ≤ 16) :
    takeGoodTracked t c q =
      ⟨{ t with lastSeq := q, bad := 0 }, { c with gaps := satAdd c.gaps ((q - t.lastSeq).toNat - 1) }, true, none⟩ :=
  (if_neg (Nat.ne_of_gt h1)).trans (if_pos h16)

theorem takeGoodTracked_outOfOrder (h : 17 ≤ (q - t.lastSeq).toNat) :
    takeGoodTracked t c q = ⟨t, { c with outOfOrder := satAdd c.outOfOrder 1 }, false, none⟩ :=
  (if_neg (Nat.ne_of_gt (Nat.le_of_succ_le (Nat.le_trans (by decide) h)))).trans (if_neg (Nat.not_le.2 h))

theorem takeBadTracked_counted (h : t.bad + 1 < p.lapseCount) :
    takeBadTracked p t c = ⟨{ t with bad := t.bad + 1 }, c.bad, false, none⟩ := if_neg (Nat.not_le.2 h)

theorem takeBadTracked_lapsed (h : p.lapseCount ≤ t.bad + 1) :
    takeBadTracked p t c = ⟨{ t with track := .hunt, bad := 0, proof := 0 }, c.bad, false, some .lapsed⟩ := if_pos h
end

theorem raiseLink_lapsed (t : TagEntry) (arrival : Time) (s : State) :
    raiseLink t (some .lapsed) arrival s = withLinkCondition s .lapsed t arrival s.params.lapseCount := rfl

/-- Settles O37: `exec_takeFrame_mapped` with the judgement of each row. -/
theorem trackedTakes : Obligations.TrackedTakes := by
  unfold Obligations.TrackedTakes
  intro e rest t t' d s htake hdrop hentry htrack hd
  subst hd
  have hmapped (good : Bool) : takeMapped s.params t s.counters.taken good (treated s e) = _ := takeMapped_tracked htrack good
  have hgoods (hgood : Good s e) :
      takeMapped s.params t s.counters.taken (verdict (injected s e) e) (treated s e)
        = takeGoodTracked t s.counters.taken (treated s e) := by
    rw [(verdict_iff s e).2 hgood, hmapped]
    rfl
  have hbads (hbad : ¬ Good s e) :
      takeMapped s.params t s.counters.taken (verdict (injected s e) e) (treated s e)
        = takeBadTracked s.params t s.counters.taken := by
    rw [verdict_of_not_good hbad, hmapped]
    rfl
  refine ⟨fun hgood h0 => ?_, fun hgood h1 h16 => ?_, fun hgood h17 => ?_, fun hbad hlt => ?_, fun hbad hle ht' => ?_⟩
  · refine exec_takeFrame_discarded htake hdrop hentry (fun _ => rfl) ?_
    rw [hgoods hgood, takeGoodTracked_duplicate h0]
    rfl
  · have hnext := (hgoods hgood).trans (takeGoodTracked_next h1 h16)
    rw [exec_takeFrame_mapped (f := fun c => { c with gaps := satAdd c.gaps ((treated s e - t.lastSeq).toNat - 1) }) htake
      hdrop hentry (fun _ => rfl) hnext]
    simp only [raiseLink, if_true, InboxEntry.handed]
  · refine exec_takeFrame_discarded htake hdrop hentry (fun _ => rfl) ?_
    rw [hgoods hgood, takeGoodTracked_outOfOrder h17]
  · refine exec_takeFrame_discarded htake hdrop hentry (fun _ => rfl) ?_
    rw [hbads hbad, takeBadTracked_counted hlt]
    rfl
  · subst ht'
    have hlapsed := (hbads hbad).trans (takeBadTracked_lapsed hle)
    rw [exec_takeFrame_mapped (f := Counters.bad) htake hdrop hentry (fun _ => rfl) hlapsed]
    simp only [raiseLink_lapsed, Bool.false_eq_true, if_false] <;> rfl

/-! ## The places of the Unknown Tag List (R51, R52) -/

theorem placeWhere_eq_none {p : Option UnknownEntry → Bool} {l : List (Option UnknownEntry)} (h : ∀ x ∈ l, p x = false)
    (i : Nat) : placeWhere p i l = none := by
  induction l generalizing i with
  | nil => rfl
  | cons x l ih =>
    rw [placeWhere, h x List.mem_cons_self]
    exact ih (fun y hy => h y (List.mem_cons_of_mem _ hy)) (i + 1)

theorem placeWhere_first {p : Option UnknownEntry → Bool} {l : List (Option UnknownEntry)} {n : Nat} (hn : n < l.length)
    (hp : p l[n] = true) (hb : ∀ m (hm : m < l.length), m < n → p l[m] = false) (i : Nat) :
    placeWhere p i l = some (Fin.ofNat 16 (i + n)) := by
  induction l generalizing i n with
  | nil => exact absurd hn (Nat.not_lt_zero n)
  | cons x l ih =>
    cases n with
    | zero => exact if_pos hp
    | succ n =>
      have hx : p x = false := hb 0 (Nat.zero_lt_succ _) (Nat.zero_lt_succ n)
      rw [placeWhere, hx]
      refine (ih (Nat.lt_of_succ_lt_succ hn) hp (fun m hm hmn => ?_) (i + 1)).trans ?_
      · exact hb (m + 1) (Nat.succ_lt_succ hm) (Nat.succ_lt_succ hmn)
      · rw [Nat.add_right_comm, Nat.add_assoc]

section
variable {u : Vector (Option UnknownEntry) 16} {p : Option UnknownEntry → Bool}

/-- The lowest-numbered place that passes the test. -/
theorem placeWhere_vector_first {k : Fin 16} (hp : p u[k] = true) (hb : ∀ j : Fin 16, j < k → p u[j] = false) :
    placeWhere p 0 u.toList = some k := by
  have hlen : u.toList.length = 16 := u.length_toList
  refine (placeWhere_first (n := k.val) (k.isLt.trans_eq hlen.symm) (by rw [Vector.getElem_toList]; exact hp) (fun m hm hmk => ?_) 0).trans ?_
  · rw [Vector.getElem_toList]
    exact hb ⟨m, hm.trans_eq hlen⟩ hmk
  · rw [Nat.zero_add]
    exact congrArg some (Fin.ext (Nat.mod_eq_of_lt k.isLt))

theorem placeWhere_vector_none (h : ∀ j : Fin 16, p u[j] = false) : placeWhere p 0 u.toList = none := by
  refine placeWhere_eq_none (fun x hx => ?_) 0
  obtain ⟨j, hj, rfl⟩ := List.getElem_of_mem hx
  rw [Vector.getElem_toList]
  exact h ⟨j, hj.trans_eq u.length_toList⟩
end

/-- The test of `LinkTracker.listedAt`. -/
theorem listed_eq_false {x : Option UnknownEntry} {a : RadioAddr} (h : ∀ y, x = some y → y.radio ≠ a) :
    (x.any fun u => u.radio == a) = false := by
  cases x with
  | none => rfl
  | some y => exact beq_eq_false_iff_ne.2 (h y rfl)

section
variable {l : LinkTracker} {a : RadioAddr}

theorem listedAt_first {k : Fin 16} {x : UnknownEntry} (hx : l.unknown[k] = some x) (ha : x.radio = a)
    (hb : ∀ j : Fin 16, j < k → ∀ y, l.unknown[j] = some y → y.radio ≠ a) : l.listedAt a = some k :=
  placeWhere_vector_first (by rw [hx]; exact beq_iff_eq.2 ha) fun j hj => listed_eq_false (hb j hj)

theorem listedAt_none (h : ∀ (j : Fin 16) (y : UnknownEntry), l.unknown[j] = some y → y.radio ≠ a) : l.listedAt a = none :=
  placeWhere_vector_none fun j => listed_eq_false (h j)

theorem freePlace_first {k : Fin 16} (hk : l.unknown[k] = none) (hb : ∀ j : Fin 16, j < k → l.unknown[j] ≠ none) :
    l.freePlace = some k :=
  placeWhere_vector_first (by rw [hk]; rfl) fun j hj => Option.isNone_eq_false_iff.2 (Option.isSome_iff_ne_none.2 (hb j hj))

theorem freePlace_none (h : ∀ k : Fin 16, l.unknown[k] ≠ none) : l.freePlace = none :=
  placeWhere_vector_none fun j => Option.isNone_eq_false_iff.2 (Option.isSome_iff_ne_none.2 (h j))
end

/-! ## An unmapped frame (R50, R52) -/

section
variable {s : State} {e : InboxEntry} {seq : Seq}

theorem takeUnmapped_bad :
    takeUnmapped s e false seq = s.count (Counters.bad { s.counters with unmappedFrames := satAdd s.counters.unmappedFrames 1 }) := rfl

theorem takeUnmapped_listed {k : Fin 16} {x : UnknownEntry} (hk : s.link.listedAt e.radio = some k)
    (hx : s.link.unknown[k] = some x) :
    takeUnmapped s e true seq =
      { s.count { s.counters with unmappedFrames := satAdd s.counters.unmappedFrames 1 } with
        link := { s.link with unknown := s.link.unknown.set k (some { x with seen := satAdd x.seen 1 }) } } := by
  simp only [takeUnmapped, Bool.not_true, Bool.false_eq_true, if_false, hk, hx, Option.map_some]

theorem takeUnmapped_new {k : Fin 16} (hn : s.link.listedAt e.radio = none) (hk : s.link.freePlace = some k) :
    takeUnmapped s e true seq =
      { s.count { s.counters with unmappedFrames := satAdd s.counters.unmappedFrames 1 } with
        link := { s.link with unknown := s.link.unknown.set k (some ⟨e.radio, e.arrival, seq, 1⟩) }
        sources := { s.sources with tags := s.sources.tags.set k true } } := by
  simp only [takeUnmapped, Bool.not_true, Bool.false_eq_true, if_false, hn, hk]

theorem takeUnmapped_overflow (hn : s.link.listedAt e.radio = none) (hk : s.link.freePlace = none) :
    takeUnmapped s e true seq =
      s.count
        { s.counters with
          unmappedFrames := satAdd s.counters.unmappedFrames 1
          unknownOverflow := satAdd s.counters.unknownOverflow 1 } := by
  simp only [takeUnmapped, Bool.not_true, Bool.false_eq_true, if_false, hn, hk]
end

/-- A judged frame of an unmapped radio. -/
theorem exec_takeFrame_unmapped {s : State} {e : InboxEntry} {rest : List InboxEntry} (htake : Taking s e rest)
    (hdrop : injected s e ≠ some .drop) (hentry : s.link.entryOf e.radio = none) :
    exec .takeFrame s =
      .next
        (settle
          (takeUnmapped ((headTaken s e rest).count s.counters.taken) e (verdict (injected s e) e) (treated s e))) := by
  have hjudged : takeJudged (injected s e) e (headTaken s e rest)
      = takeUnmapped ((headTaken s e rest).count s.counters.taken) e (verdict (injected s e) e) (treated s e) := by
    have hnone : ((headTaken s e rest).count (headTaken s e rest).counters.taken).link.entryOf e.radio = none := hentry
    simp only [takeJudged]
    split
    · rename_i t ht
      cases hnone.symm.trans ht
    · rfl
  rw [exec_takeFrame htake, takeEntry_of_not_drop rest hdrop, hjudged]

theorem takeEntry_dropped {s : State} {e : InboxEntry} {rest : List InboxEntry} (h : injected s e = some .drop) :
    takeEntry e { s with inbox := rest } = { s with inbox := rest, link := { s.link with injection := none } } := by
  have hinj : ({ s with inbox := rest } : State).link.injectionFor e.radio = some .drop := h
  simp only [takeEntry, hinj]

/-- Settles O38: `takeUnmapped` case by case, a dropped frame, and no take. -/
theorem unmappedAndDroppedTakes : Obligations.UnmappedAndDroppedTakes := by
  unfold Obligations.UnmappedAndDroppedTakes
  refine ⟨fun e rest c s htake hdrop hentry hc => ?_, fun e rest s htake hdrop => ?_, fun s hs h => ?_⟩
  · subst hc
    have hexec := exec_takeFrame_unmapped htake hdrop hentry
    let counted : State := (headTaken s e rest).count s.counters.taken
    have hcount (f : Counters → Counters) (hf : ∀ x, (f x).framesTaken = x.framesTaken) :=
      count_headTaken s e rest (f := f) hf
    refine ⟨fun hbad => ?_, fun k x hgood hx ha hb => ?_, fun k hgood hn hk hb => ?_, fun hgood hn hk => ?_⟩
    · rw [hexec, verdict_of_not_good hbad, takeUnmapped_bad]
      exact congrArg (fun u => Host.Outcome.next (settle u))
        (hcount (fun c => Counters.bad { c with unmappedFrames := satAdd c.unmappedFrames 1 }) fun _ => rfl)
    · rw [hexec, (verdict_iff s e).2 hgood, takeUnmapped_listed (s := counted) (listedAt_first hx ha hb) hx]
      rw [← hcount (fun c => { c with unmappedFrames := satAdd c.unmappedFrames 1 }) fun _ => rfl]
      rfl
    · rw [hexec, (verdict_iff s e).2 hgood, takeUnmapped_new (s := counted) (listedAt_none hn) (freePlace_first hk hb)]
      rw [← hcount (fun c => { c with unmappedFrames := satAdd c.unmappedFrames 1 }) fun _ => rfl]
      rfl
    · rw [hexec, (verdict_iff s e).2 hgood, takeUnmapped_overflow (s := counted) (listedAt_none hn) (freePlace_none hk)]
      exact congrArg (fun u => Host.Outcome.next (settle u))
        (hcount (fun c => { c with
          unmappedFrames := satAdd c.unmappedFrames 1, unknownOverflow := satAdd c.unknownOverflow 1 }) fun _ => rfl)
  · rw [exec_takeFrame htake, takeEntry_dropped hdrop]
  · refine event_idles hs ?_
    rcases h with h | h | h
    · rw [beq_eq_false_iff_ne.2 h]
      rfl
    · rw [h, List.isEmpty_nil, Bool.not_true, Bool.and_false]
      rfl
    · rw [Option.isNone_eq_false_iff.2 (Option.isSome_iff_ne_none.2 h), Bool.and_false]

/-! ## A frame at its bay (R39, R67, R70-R73) -/

section
variable {h : HandedFrame} {b : BayNo} {s : State}

theorem offerFrame_locked (hl : s.locked h.bay = true) (hd : (s.bay h.bay).deferred = none) :
    offerFrame h s = (s.setBay h.bay { s.bay h.bay with deferred := some h }).clearHandOff := by
  simp only [offerFrame, hl, hd, Option.isSome_none, Bool.false_eq_true, if_false, if_true]

theorem offerFrame_superseding (hl : s.locked h.bay = true) {old : HandedFrame} (hd : (s.bay h.bay).deferred = some old) :
    offerFrame h s =
      ((s.setBay h.bay { s.bay h.bay with deferred := some h }).clearHandOff).count
        { s.counters with superseded := satAdd s.counters.superseded 1 } := by
  simp only [offerFrame, hl, hd, Option.isSome_some, if_true]
  rfl

theorem offerFrame_behind (hl : s.locked h.bay = false) (hf : (s.bay h.bay).inFlight = true) :
    offerFrame h s = s.setWaiting h.bay ((s.bay h.bay).waiting ++ [.handOffFrame]) := by
  simp only [offerFrame, hl, hf, Bool.false_eq_true, if_false, if_true]

theorem offerFrame_free (hl : s.locked h.bay = false) (hf : (s.bay h.bay).inFlight = false)
    (hh : s.link.handOff = some h) : offerFrame h s = meetFrame h.bay h s.clearHandOff := by
  simp only [offerFrame, hl, hf, Bool.false_eq_true, if_false, startEvent, hh]
end

/-- Settles O39: `offerFrame` case by case, and `Work.evaluate` as its four stages. -/
theorem frameReachesItsBay : Obligations.FrameReachesItsBay := by
  unfold Obligations.FrameReachesItsBay
  intro h b s hb
  subst hb
  let filled : State := { s with link := { s.link with handOff := some h } }
  refine ⟨fun hl hd => (offerFrame_locked (s := filled) hl hd).trans rfl,
    fun old hl hd => (offerFrame_superseding (s := filled) hl hd).trans rfl,
    fun hl hf => (offerFrame_behind (s := filled) hl hf).trans rfl, fun hl hf hno => ?_,
    fun w w1 w2 w3 w4 hl hf ho hr hw hw1 hw2 hw3 hw4 => ?_⟩
  · refine (offerFrame_free (s := filled) hl hf rfl).trans (meetFrame_misfit (s := filled.clearHandOff) ?_)
    exact fun ⟨ho, hr⟩ => hno.elim (fun hno => by rw [show (s.bay h.bay).occupied = true from ho] at hno; cases hno) fun hno => hno hr
  · have hmeet : handOn h s = update h.bay (Work.evaluate (filled.clearHandOff.ctx h.bay) h) filled.clearHandOff :=
      (offerFrame_free (s := filled) hl hf rfl).trans (meetFrame_fits (s := filled.clearHandOff) ⟨ho, hr⟩)
    have hwork : Work.evaluate (filled.clearHandOff.ctx h.bay) h (startWork h.bay filled.clearHandOff) = w4 := by
      rw [hw4, hw3, hw2, hw1, hw]
      rfl
    have htold : toldOf h.bay w4 filled.clearHandOff = toldOf h.bay w4 s := by
      rw [toldOf_eq, toldOf_eq]
      rfl
    rw [hmeet, update_begun, hwork, htold]
    rfl

end Sys2Proof.Machine

/-! PROOFS. O40, O42: the store, fuel and door stages of an evaluation (R74, R126-R133, R140-R145). -/

namespace Sys2Proof.Machine

/-! ## The store stage (R74, R75) -/

/-- The entry with the reading stored and the silence timer started. -/
def BayEntry.stored (e : BayEntry) (r : Reading) (silence : Nat) : BayEntry :=
  { e.markStale .silence with reading := r, readingHeld := true, silent := false, silence := .running silence silence }

/-- The update with the frame's reading in its entry. -/
def Work.withReading (w : Work) (h : HandedFrame) : Work :=
  { w with bay := { w.bay with reading := h.reading, readingHeld := true } }

theorem storeStage_eq (c : Ctx) (h : HandedFrame) (w : Work) :
    w.storeStage c h = ((w.withReading h).resume h).setTimer .silence (.start c.params.silenceLimit) := rfl

theorem storeStage_heard {c : Ctx} {h : HandedFrame} {w : Work} (hs : w.bay.silent = false) :
    w.storeStage c h = ⟨w.bay.stored h.reading c.params.silenceLimit, w.reports, w.orders, w.conds⟩ := by
  have hresume : (w.withReading h).resume h = w.withReading h :=
    if_neg (by show ¬ w.bay.silent = true; rw [hs]; decide)
  rw [storeStage_eq, hresume]
  unfold BayEntry.stored
  rw [← hs]
  rfl

theorem storeStage_silent {c : Ctx} {h : HandedFrame} {w : Work} (hs : w.bay.silent = true) :
    w.storeStage c h =
      ⟨w.bay.stored h.reading c.params.silenceLimit, w.reports ++ [.mayBeEligible w.bay.feeder], w.orders,
        w.conds
          ++ [(.link, ⟨.resumed, h.arrival, .radio (w.bay.radio.getD 0) h.seq, h.arrival - w.bay.silentSince⟩)]⟩ := by
  have hresume : (w.withReading h).resume h =
      ⟨{ (w.withReading h).bay with silent := false }, w.reports ++ [.mayBeEligible w.bay.feeder], w.orders,
        w.conds ++ [(.link, (w.withReading h).bay.radioCondition .resumed h.arrival (h.arrival - w.bay.silentSince))]⟩ :=
    if_pos (c := (w.withReading h).bay.silent = true) hs
  rw [storeStage_eq, hresume]
  rfl

/-! ## The fuel stage (R126-R133) -/

theorem validLevel_iff (l : Half) : validLevel l = true ↔ l.toNat ≤ 1000 := by
  simp [validLevel]

theorem fuelStage_electric {w : Work} (h : w.bay.kind = .electric) : w.fuelStage = w := by
  simp only [Work.fuelStage, h]

/-- The condition an update of a DIESEL bay's fuel record raises, if any. -/
def BayEntry.fuelFound (e : BayEntry) : Option (Code × Nat) :=
  fuelCondition (stateCondition e.fuel.state e.newFuelState e.reading.shorePower) e.dropFound e.refuelFound
    e.reading.fuel.toNat

/-- The baseline that the reading leaves (R130). -/
def BayEntry.newBaseline (e : BayEntry) : Option (Half × Time) :=
  if e.reading.fuel.toNat ≤ 1000 then some (e.reading.fuel, e.reading.arrival) else e.fuel.baseline

/-- The FUEL conditions of a condition found. -/
def BayEntry.fuelConds (e : BayEntry) (found : Option (Code × Nat)) : List (AlertKind × Condition) :=
  match found with
  | some (code, value) => [(.fuel, e.radioCondition code e.reading.arrival (BitVec.ofNat 32 value))]
  | none => []

theorem fuelStage_diesel {w : Work} (h : w.bay.kind = .diesel) :
    w.fuelStage =
      ⟨{ w.bay with fuel := ⟨w.bay.newFuelState, w.bay.newBaseline⟩ }, w.reports, w.orders,
        w.conds ++ w.bay.fuelConds w.bay.fuelFound⟩ := by
  have hstage : w.fuelStage = w.fuelStageDiesel := by simp only [Work.fuelStage, h]
  have hbaseline :
      (if validLevel w.bay.reading.fuel then some (w.bay.reading.fuel, w.bay.reading.arrival) else w.bay.fuel.baseline)
        = w.bay.newBaseline := by
    simp only [BayEntry.newBaseline, validLevel_iff]
  rw [hstage]
  unfold Work.fuelStageDiesel
  simp only [hbaseline]
  have hfound : fuelCondition (stateCondition w.bay.fuel.state w.bay.newFuelState w.bay.reading.shorePower) w.bay.dropFound
      w.bay.refuelFound w.bay.reading.fuel.toNat = w.bay.fuelFound := rfl
  rw [hfound]
  cases w.bay.fuelFound with
  | none => exact congrArg (Work.mk _ _ _) (List.append_nil w.conds).symm
  | some found => rfl

theorem newFuelState_invalid {e : BayEntry} (h : 1000 < e.reading.fuel.toNat) : e.newFuelState = .noSensor :=
  if_neg (mt (validLevel_iff _).1 (Nat.not_le.2 h))

theorem newFuelState_valid {e : BayEntry} (h : e.reading.fuel.toNat ≤ 1000) :
    e.newFuelState = fuelByLevel e.settings e.fuel.state e.reading.fuel.toNat := if_pos ((validLevel_iff _).2 h)

section
variable {x : Settings} {level : Nat}

theorem fuelByLevel_critical (h : level ≤ x.fuelCritical.toNat) (found : FuelState) : fuelByLevel x found level = .critical :=
  if_pos h

theorem fuelByLevel_above {found : FuelState} (h : x.fuelCritical.toNat < level) :
    ((found = .normal ∨ found = .noSensor) →
        fuelByLevel x found level = if level ≤ x.fuelLow.toNat then .low else .normal)
      ∧ (found = .low →
        fuelByLevel x found level = if level < x.fuelLow.toNat + x.fuelHysteresis.toNat then .low else .normal)
      ∧ (found = .critical →
        fuelByLevel x found level =
          if level < x.fuelCritical.toNat + x.fuelHysteresis.toNat then .critical
          else if level < x.fuelLow.toNat + x.fuelHysteresis.toNat then .low else .normal) := by
  refine ⟨fun hf => ?_, fun hf => ?_, fun hf => ?_⟩
  · rcases hf with rfl | rfl <;> exact if_neg (Nat.not_le.2 h)
  · subst hf
    exact if_neg (Nat.not_le.2 h)
  · subst hf
    exact if_neg (Nat.not_le.2 h)
end

/-- The drop against the baseline (R131). -/
theorem dropFound_eq_some (e : BayEntry) (n : Nat) :
    e.dropFound = some n ↔
      ∃ base time, e.fuel.baseline = some (base, time) ∧ e.reading.fuel.toNat ≤ 1000 ∧ e.reading.engineRunning = false
        ∧ (e.reading.arrival - time).toNat ≤ 900 ∧ e.reading.fuel.toNat + e.settings.fuelDrop.toNat ≤ base.toNat
        ∧ n = base.toNat - e.reading.fuel.toNat := by
  unfold BayEntry.dropFound
  cases hb : e.fuel.baseline with
  | none => simp
  | some p =>
    obtain ⟨base, time⟩ := p
    simp only [Option.ite_none_right_eq_some, Bool.and_eq_true, Bool.not_eq_true', decide_eq_true_eq, validLevel_iff,
      Option.some.injEq, Prod.mk.injEq]
    constructor
    · rintro ⟨⟨⟨⟨hvalid, hengine⟩, htime⟩, hdrop⟩, hn⟩
      exact ⟨base, time, ⟨rfl, rfl⟩, hvalid, hengine, htime, hdrop, hn.symm⟩
    · rintro ⟨_, _, ⟨rfl, rfl⟩, hvalid, hengine, htime, hdrop, hn⟩
      exact ⟨⟨⟨⟨hvalid, hengine⟩, htime⟩, hdrop⟩, hn.symm⟩

/-- The refuel against the baseline (R132). -/
theorem refuelFound_eq_some (e : BayEntry) (n : Nat) :
    e.refuelFound = some n ↔
      ∃ base time, e.fuel.baseline = some (base, time) ∧ e.reading.fuel.toNat ≤ 1000
        ∧ base.toNat + 100 ≤ e.reading.fuel.toNat ∧ n = e.reading.fuel.toNat - base.toNat := by
  unfold BayEntry.refuelFound
  cases hb : e.fuel.baseline with
  | none => simp
  | some p =>
    obtain ⟨base, time⟩ := p
    simp only [Option.ite_none_right_eq_some, Bool.and_eq_true, decide_eq_true_eq, validLevel_iff, Option.some.injEq,
      Prod.mk.injEq]
    constructor
    · rintro ⟨⟨hvalid, hrefuel⟩, hn⟩
      exact ⟨base, time, ⟨rfl, rfl⟩, hvalid, hrefuel, hn.symm⟩
    · rintro ⟨_, _, ⟨rfl, rfl⟩, hvalid, hrefuel, hn⟩
      exact ⟨⟨hvalid, hrefuel⟩, hn.symm⟩

/-- The state condition, as O40 writes it (R129). -/
theorem stateCondition_eq (found new : FuelState) (shore : Bool) :
    stateCondition found new shore =
      if new = found then none
      else
        match new with
        | .normal => none
        | .low => some .low
        | .critical => some (if shore then .critical else .criticalNoPower)
        | .noSensor => some .sensor := by
  unfold stateCondition
  by_cases h : found = new
  · rw [if_pos h, if_pos h.symm]
  · rw [if_neg h, if_neg (Ne.symm h)]
    cases new <;> cases shore <;> rfl

/-- The one condition raised, by the precedence of R133. -/
theorem fuelConds_fuelCondition (e : BayEntry) (stateCode : Option Code) (drop refuel : Option Nat) (level : Nat) :
    e.fuelConds (fuelCondition stateCode drop refuel level) =
      match stateCode, drop, refuel with
      | some .sensor, _, _ => e.fuelConds (some (.sensor, level))
      | some .criticalNoPower, _, _ => e.fuelConds (some (.criticalNoPower, level))
      | some .critical, _, _ => e.fuelConds (some (.critical, level))
      | _, some n, _ => e.fuelConds (some (.drop, n))
      | _, none, some n => e.fuelConds (some (.refuel, n))
      | some code, none, none => e.fuelConds (some (code, level))
      | none, none, none => [] := by
  cases stateCode with
  | none => cases drop <;> cases refuel <;> rfl
  | some code => cases code <;> cases drop <;> cases refuel <;> rfl

/-- Settles O40: `storeStage_heard` and `storeStage_silent`, and `fuelStage_diesel` with what it finds. -/
theorem storeAndFuelStagesFollowTheirTables : Obligations.StoreAndFuelStagesFollowTheirTables := by
  unfold Obligations.StoreAndFuelStagesFollowTheirTables
  refine ⟨fun c h w => ?_, fun w w' level low crit hyst hw' hlevel hlow hcrit hhyst => ?_⟩
  · cases hs : w.bay.silent with
    | false =>
      exact ⟨_, (storeStage_heard hs).symm, rfl, rfl, fun _ => ⟨rfl, rfl⟩, fun h => by cases h⟩
    | true =>
      exact ⟨_, (storeStage_silent hs).symm, rfl, rfl, fun h => (by cases h), fun _ => ⟨rfl, rfl⟩⟩
  · subst hlevel hlow hcrit hhyst
    refine ⟨fun hk => hw'.trans (fuelStage_electric hk), fun hk => ?_⟩
    rw [fuelStage_diesel hk] at hw'
    subst hw'
    refine ⟨rfl, rfl, rfl, newFuelState_invalid, fun hvalid => ⟨fun hle => ?_, fun hlt => ?_⟩,
      fun stateCode drop refuel value hstate hdrop hrefuel hvalue => ?_⟩
    · exact (newFuelState_valid hvalid).trans (fuelByLevel_critical hle _)
    · obtain ⟨hnormal, hlow, hcritical⟩ := fuelByLevel_above (x := w.bay.settings) (found := w.bay.fuel.state) hlt
      exact ⟨fun h => (newFuelState_valid hvalid).trans (hnormal h), fun h => (newFuelState_valid hvalid).trans (hlow h),
        fun h => (newFuelState_valid hvalid).trans (hcritical h)⟩
    · have hstate' : stateCode = stateCondition w.bay.fuel.state w.bay.newFuelState w.bay.reading.shorePower :=
        hstate.trans (stateCondition_eq _ _ _).symm
      have hdrop' : drop = w.bay.dropFound := Option.ext fun n => (hdrop n).trans (dropFound_eq_some _ n).symm
      have hrefuel' : refuel = w.bay.refuelFound := Option.ext fun n => (hrefuel n).trans (refuelFound_eq_some _ n).symm
      subst hvalue
      refine congrArg (w.conds ++ ·) ?_
      show w.bay.fuelConds (fuelCondition _ _ _ _) = _
      rw [fuelConds_fuelCondition, ← hstate', ← hdrop', ← hrefuel']
      rfl

/-! ## The door stage (R140-R145) -/

section
variable {found : DefrostState} {w : Work}

theorem doorStage_open (h : w.bay.reading.doorOpen = true) : w.doorStage found = w.doorSeenOpen found := if_pos h

theorem doorStage_shut (h : w.bay.reading.doorOpen = false) : w.doorStage found = w.doorSeenShut :=
  if_neg (by rw [h]; decide)

/-- IN_DEFROST, raised of an entry whose door has been open since `since`. -/
def BayEntry.inDefrostConds (e : BayEntry) (judged : Bool) (since : Time) : List (AlertKind × Condition) :=
  if judged then
    [(.door, ⟨.inDefrost, e.reading.arrival, .radio (e.radio.getD 0) e.reading.seq, e.reading.arrival - since⟩)]
  else []

theorem doorSeenOpen_closed (h : w.bay.door.state = .closed) :
    w.doorSeenOpen found =
      ⟨{ w.bay.markStale .door with
          door := ⟨.isOpen, w.bay.reading.arrival, satAdd w.bay.door.opens 1, .start w.bay.doorLimit⟩ },
        w.reports, w.orders,
        w.conds ++ w.bay.inDefrostConds (inDefrost .closed found w.bay.defrost.state) w.bay.reading.arrival⟩ := by
  unfold Work.doorSeenOpen BayEntry.inDefrostConds
  simp only [h, if_true]
  split
  · rfl
  · rw [List.append_nil]
    rfl

theorem doorSeenOpen_open (h : w.bay.door.state ≠ .closed) :
    w.doorSeenOpen found =
      ⟨w.bay, w.reports, w.orders,
        w.conds ++ w.bay.inDefrostConds (inDefrost w.bay.door.state found w.bay.defrost.state) w.bay.door.since⟩ := by
  unfold Work.doorSeenOpen BayEntry.inDefrostConds
  simp only [h, if_false]
  split
  · rfl
  · rw [List.append_nil]

theorem inDefrost_closed (found left : DefrostState) : inDefrost .closed found left = decide (left = .running) := by
  cases left <;> rfl

theorem inDefrost_open {x : DoorState} (h : x ≠ .closed) (found left : DefrostState) :
    inDefrost x found left = (left == .running && found != .running) := by
  unfold inDefrost
  rw [beq_eq_false_iff_ne.2 h, Bool.false_or]

theorem doorSeenShut_closed (h : w.bay.door.state = .closed) : w.doorSeenShut = w := by
  simp only [Work.doorSeenShut, h]

theorem doorSeenShut_open (h : w.bay.door.state = .isOpen) :
    w.doorSeenShut =
      ⟨{ w.bay.markStale .door with door := { w.bay.door with state := .closed, timer := .stopped } }, w.reports, w.orders,
        w.conds⟩ := by
  simp only [Work.doorSeenShut, h] <;> rfl

theorem doorSeenShut_long (h : w.bay.door.state = .openLong) :
    w.doorSeenShut =
      ⟨{ w.bay with door := { w.bay.door with state := .closed } }, w.reports, w.orders,
        w.conds
          ++ [(.door,
            ⟨.closedAfterLong, w.bay.reading.arrival, .radio (w.bay.radio.getD 0) w.bay.reading.seq,
              w.bay.reading.arrival - w.bay.door.since⟩)]⟩ := by
  simp only [Work.doorSeenShut, h] <;> rfl
end

/-- Settles O42: `Work.doorSeenOpen` and `Work.doorSeenShut` by the door state found. -/
theorem doorStageFollowsItsTables : Obligations.DoorStageFollowsItsTables := by
  unfold Obligations.DoorStageFollowsItsTables
  intro found w w' e limit hw' he hlimit condition brought
  subst hw' he
  have hdoorLimit : w.bay.doorLimit = limit := (doorLimit_eq w.bay).trans hlimit.symm
  refine ⟨fun hopen hd => ?_, fun hopen hd => ?_, fun hshut hd => ?_, fun hshut hd => ?_, fun hshut hd => ?_, ?_⟩
  · rw [doorStage_open hopen, doorSeenOpen_closed hd, hdoorLimit, inDefrost_closed]
    refine ⟨rfl, congrArg (w.conds ++ ·) ?_⟩
    simp only [BayEntry.inDefrostConds, decide_eq_true_eq] <;> rfl
  · rw [doorStage_open hopen, doorSeenOpen_open hd, inDefrost_open hd]
    exact ⟨rfl, rfl⟩
  · rw [doorStage_shut hshut, doorSeenShut_closed hd]
  · rw [doorStage_shut hshut, doorSeenShut_open hd]
    exact ⟨rfl, rfl⟩
  · rw [doorStage_shut hshut, doorSeenShut_long hd]
    exact ⟨rfl, rfl⟩
  · cases hopen : w.bay.reading.doorOpen with
    | true =>
      rw [doorStage_open hopen]
      by_cases hd : w.bay.door.state = .closed
      · rw [doorSeenOpen_closed hd]
        exact ⟨rfl, rfl⟩
      · rw [doorSeenOpen_open hd]
        exact ⟨rfl, rfl⟩
    | false =>
      rw [doorStage_shut hopen]
      cases hd : w.bay.door.state with
      | closed =>
        rw [doorSeenShut_closed hd]
        exact ⟨rfl, rfl⟩
      | isOpen =>
        rw [doorSeenShut_open hd]
        exact ⟨rfl, rfl⟩
      | openLong =>
        rw [doorSeenShut_long hd]
        exact ⟨rfl, rfl⟩

end Sys2Proof.Machine

/-! PROOFS. O41: the defrost stage, an equation per row of R87 and R94-R98. -/

namespace Sys2Proof.Machine

/-! ## What a stage adds to the update -/

/-- The update `w` with the entry `bay` and what is reported, told and raised behind what it has. -/
def Work.plus (w : Work) (bay : BayEntry) (reports : List Report) (orders : List OrderTell)
    (conds : List (AlertKind × Condition)) : Work :=
  ⟨bay, w.reports ++ reports, w.orders ++ orders, w.conds ++ conds⟩

theorem Work.plus_nothing (w : Work) : w.plus w.bay [] [] [] = w := by
  simp only [plus, List.append_nil]

/-- The entry with its defrost timer started or stopped and the record `x`. -/
def BayEntry.timed (e : BayEntry) (x : DefrostRecord) : BayEntry := { e.markStale .defrost with defrost := x }

/-- The record with a new order pending (R83, R84). -/
def DefrostRecord.orders (d : DefrostRecord) (k : OrderKind) : DefrostRecord :=
  { d with orderNumber := nextOrderNumber d.orderNumber, lastKind := some k, pending := some ⟨k, d.grantFeeder⟩ }

theorem timed_markStale (e : BayEntry) (x y : DefrostRecord) :
    { (e.timed x).markStale .defrost with defrost := y } = e.timed y :=
  congrArg (fun z : BayEntry => { z with defrost := y }) (e.markStale_markStale .defrost)

/-! ## The ice count (R87) -/

theorem iced_iff (e : BayEntry) :
    e.iced = true ↔
      e.reading.coil.toInt ≤ 10 * e.settings.coilIcePoint.toInt
        ∧ e.reading.returnAir.toInt - e.reading.supplyAir.toInt ≤ e.settings.iceMargin.toNat
        ∧ e.reading.defrostActive = false := by
  simp only [BayEntry.iced, Bool.and_eq_true, decide_eq_true_eq, Bool.not_eq_true', and_assoc]

/-! ## The transitions (R81, R89, R90) -/

section
variable {c : Ctx} {v : Work}

/-- The queue that a bay leaves with DUE. -/
def BayEntry.leavesQueue (e : BayEntry) : List Report :=
  if e.defrost.reason = .queued then [.leaveQueue e.feeder] else []

/-- The bay heats without a grant, from IDLE or DRAINING (R94). -/
theorem unordered_resting (h : v.bay.defrost.state = .idle ∨ v.bay.defrost.state = .draining) :
    v.unordered c =
      v.plus (v.bay.timed { v.bay.defrost with state := .self, timer := .stopped }) [.selfJoin v.bay.feeder] []
        [(.defrost, ⟨.unordered, v.bay.reading.arrival, .radio (v.bay.radio.getD 0) v.bay.reading.seq,
          v.bay.defrost.state.code.setWidth 32⟩)] := by
  unfold Work.unordered
  rw [moveTo_ne (new := .self) nofun,
    leave_resting (w := v.raises .defrost
      (v.bay.radioCondition .unordered v.bay.reading.arrival (v.bay.defrost.state.code.setWidth 32))) h, enter_self]
  simp only [Work.plus, List.append_nil]
  rfl

/-- The bay heats without a grant, from DUE (R95). -/
theorem unordered_due (h : v.bay.defrost.state = .due) :
    v.unordered c =
      v.plus (v.bay.timed { v.bay.defrost with state := .self, reason := .queued, timer := .stopped })
        (v.bay.leavesQueue ++ [.selfJoin v.bay.feeder]) []
        [(.defrost, ⟨.unordered, v.bay.reading.arrival, .radio (v.bay.radio.getD 0) v.bay.reading.seq, 1⟩)] := by
  have hcode : v.bay.defrost.state.code.setWidth 32 = 1 := by rw [h]; rfl
  unfold Work.unordered
  rw [hcode, moveTo_ne (new := .self) nofun,
    leave_due (w := v.raises .defrost (v.bay.radioCondition .unordered v.bay.reading.arrival 1)) h, enter_self]
  simp only [Work.plus, List.append_nil, List.append_assoc]
  rfl

/-- The entry whose engine grant is ordered to start (R89). -/
def BayEntry.engineStart (e : BayEntry) (d : DefrostRecord) (startWindow : Nat) : BayEntry :=
  e.timed
    (DefrostRecord.orders
      { d with state := .ordered, reason := .queued, grantFeeder := none, timer := .running startWindow startWindow } .start)

theorem enter_ordered_engine (d : DefrostRecord) :
    Work.enter c.params .ordered (v.defrost { d with reason := .queued, grantFeeder := none }) =
      v.plus (v.bay.engineStart d c.params.startWindow) [] [.pends] [] := by
  rw [enter_ordered]
  simp only [Work.plus, List.append_nil]
  rfl

theorem demand_shore (h : v.bay.defrost.state = .idle ∨ v.bay.defrost.state = .draining) (hr : v.bay.readingHeld = true)
    (hs : v.bay.reading.shorePower = true) :
    v.demand c =
      v.plus (v.bay.timed { v.bay.defrost with state := .due, reason := .queued, iceCount := 0, timer := .stopped })
        [.joinQueue v.bay.feeder c.now] [] [] := by
  rw [demand_eq h, routePower_shore (by exact hr) (by exact hs)]
  simp only [Work.plus, List.append_nil]
  rfl

theorem demand_engine (h : v.bay.defrost.state = .idle ∨ v.bay.defrost.state = .draining) (hr : v.bay.readingHeld = true)
    (hs : v.bay.reading.shorePower = false) (he : v.bay.engineReady = true) :
    v.demand c = v.plus (v.bay.engineStart { v.bay.defrost with iceCount := 0 } c.params.startWindow) [] [.pends] [] := by
  rw [demand_eq h, routePower_engine (by exact hr) (by exact hs) (by exact he), enter_ordered]
  have hstale (y : DefrostRecord) :
      { (v.bay.timed { v.bay.defrost with state := .due, iceCount := 0, timer := .stopped }).markStale .defrost with
        defrost := y } = v.bay.timed y := timed_markStale _ _ _
  simp only [Work.plus, List.append_nil]
  exact congrArg (fun e => Work.mk e _ _ _) (hstale _)

theorem demand_held (h : v.bay.defrost.state = .idle ∨ v.bay.defrost.state = .draining)
    (hs : v.bay.reading.shorePower = false) (he : v.bay.engineReady = false) :
    v.demand c =
      v.plus (v.bay.timed { v.bay.defrost with state := .due, reason := .held, iceCount := 0, timer := .stopped })
        [] [] [] := by
  rw [demand_eq h, routePower_held (by exact .inr ⟨hs, he⟩)]
  simp only [Work.plus, List.append_nil]
  rfl

/-! ## DUE (R90, R95) -/

theorem reroute_kept (hq : v.bay.defrost.reason = .queued) (hs : v.bay.reading.shorePower = true) : v.reroute c = v := by
  unfold Work.reroute
  rw [if_pos hq, if_pos hs]

theorem reroute_joins (hq : v.bay.defrost.reason = .held) (hr : v.bay.readingHeld = true)
    (hs : v.bay.reading.shorePower = true) :
    v.reroute c =
      v.plus { v.bay with defrost := { v.bay.defrost with reason := .queued } } [.joinQueue v.bay.feeder c.now] [] [] := by
  have hne : ¬ v.bay.defrost.reason = .queued := by rw [hq]; nofun
  unfold Work.reroute
  rw [if_neg hne, routePower_shore hr hs]
  simp only [Work.plus, List.append_nil]

/-- Without shore power the bay leaves the queue, if it stands there, and is routed again. -/
theorem reroute_off (hs : v.bay.reading.shorePower = false) :
    ∃ reason, v.reroute c =
      Work.routePower c (v.plus { v.bay with defrost := { v.bay.defrost with reason := reason } } v.bay.leavesQueue [] []) := by
  unfold Work.reroute BayEntry.leavesQueue
  by_cases hq : v.bay.defrost.reason = .queued
  · refine ⟨.held, ?_⟩
    rw [if_pos hq, if_pos hq, hs]
    simp only [Work.plus, List.append_nil, Bool.false_eq_true, if_false]
    rfl
  · refine ⟨v.bay.defrost.reason, ?_⟩
    rw [if_neg hq, if_neg hq]
    exact congrArg _ v.plus_nothing.symm

theorem reroute_engine (hr : v.bay.readingHeld = true) (hs : v.bay.reading.shorePower = false)
    (he : v.bay.engineReady = true) :
    v.reroute c = v.plus (v.bay.engineStart v.bay.defrost c.params.startWindow) v.bay.leavesQueue [.pends] [] := by
  obtain ⟨reason, hroute⟩ := reroute_off (c := c) hs
  rw [hroute, routePower_engine (by exact hr) (by exact hs) (by exact he), enter_ordered]
  simp only [Work.plus, List.append_nil]
  rfl

theorem reroute_held (hs : v.bay.reading.shorePower = false) (he : v.bay.engineReady = false) :
    v.reroute c =
      v.plus { v.bay with defrost := { v.bay.defrost with reason := .held } } v.bay.leavesQueue [] [] := by
  obtain ⟨reason, hroute⟩ := reroute_off (c := c) hs
  rw [hroute, routePower_held (by exact .inr ⟨hs, he⟩)]
  simp only [Work.plus, List.append_nil]
  rfl

/-- The entry whose defrost runs. -/
def BayEntry.running (e : BayEntry) (d : DefrostRecord) (maxDefrost : Nat) : BayEntry :=
  e.timed { d with state := .running, timer := .running maxDefrost maxDefrost }

theorem stageLateStart_shore (hs : v.bay.reading.shorePower = true) (hroom : c.room = true) :
    v.stageLateStart c =
      v.plus
        (v.bay.running { v.bay.defrost with reason := .queued, grantFeeder := some v.bay.feeder } c.params.maxDefrost)
        [.directGrant v.bay.feeder] [] [] := by
  unfold Work.stageLateStart
  rw [if_pos hs, if_pos hroom, enter_running]
  simp only [Work.plus, List.append_nil]
  rfl

theorem stageLateStart_engine (hd : v.bay.defrost.state = .due) (hs : v.bay.reading.shorePower = false)
    (he : v.bay.engineReady = true) :
    v.stageLateStart c =
      v.plus (v.bay.running { v.bay.defrost with reason := .queued, grantFeeder := none } c.params.maxDefrost)
        v.bay.leavesQueue [] [] := by
  unfold Work.stageLateStart
  rw [if_neg (by rw [hs]; decide), if_pos he, moveTo_ne (new := .running) nofun,
    leave_due (w := v.defrost { v.bay.defrost with grantFeeder := none }) hd, enter_running]
  simp only [Work.plus, List.append_nil]
  rfl

theorem stageLateStart_refused
    (h : (v.bay.reading.shorePower = true ∧ c.room = false) ∨ (v.bay.reading.shorePower = false ∧ v.bay.engineReady = false)) :
    v.stageLateStart c = v.unordered c := by
  unfold Work.stageLateStart
  rcases h with ⟨hs, hroom⟩ | ⟨hs, he⟩
  · rw [if_pos hs, if_neg (by rw [hroom]; decide)]
  · rw [if_neg (by rw [hs]; decide), if_neg (by rw [he]; decide)]

theorem lateStart_iff (e : BayEntry) :
    e.lateStart = true ↔ e.reading.echo = e.defrost.orderNumber ∧ e.defrost.lastKind = some .start := by
  simp only [BayEntry.lateStart, Bool.and_eq_true, beq_iff_eq]

/-! ## ORDERED, RUNNING and STOPPING (R96, R97) -/

/-- The entry of a defrost that is ordered to stop. -/
def BayEntry.stopping (e : BayEntry) (d : DefrostRecord) (stopWindow : Nat) : BayEntry :=
  e.timed (DefrostRecord.orders { d with state := .stopping, timer := .running stopWindow stopWindow } .stop)

theorem moveTo_stopping (hg : v.bay.defrost.state.granted = true) :
    v.moveTo c.params .stopping = v.plus (v.bay.stopping v.bay.defrost c.params.stopWindow) [] [.pends] [] := by
  rw [moveTo_ne (new := .stopping) nofun, leave_granted hg, if_pos (by decide), enter_stopping]
  simp only [Work.plus, List.append_nil]
  rfl

theorem moveTo_running (hg : v.bay.defrost.state.granted = true) :
    v.moveTo c.params .running = v.plus (v.bay.running v.bay.defrost c.params.maxDefrost) [] [] [] := by
  rw [moveTo_ne (new := .running) nofun, leave_granted hg, if_pos (by decide), enter_running]
  simp only [Work.plus, List.append_nil]
  rfl

/-- An engine grant whose fuel has run low (R96, R97). -/
theorem fuelStop_iff (hg : v.bay.defrost.state.granted = true) :
    (v.bay.defrost.engineGrant && v.bay.fuel.state != .normal) = true
      ↔ v.bay.defrost.grantFeeder = none ∧ v.bay.fuel.state ≠ .normal := by
  simp only [DefrostRecord.engineGrant, hg, Bool.true_and, Bool.and_eq_true, Option.isNone_iff_eq_none, bne_iff_ne]

theorem stageOrdered_stops (hg : v.bay.defrost.state.granted = true)
    (h : v.bay.defrost.grantFeeder = none ∧ v.bay.fuel.state ≠ .normal) :
    v.stageOrdered c = v.plus (v.bay.stopping v.bay.defrost c.params.stopWindow) [] [.pends] [] :=
  (if_pos ((fuelStop_iff hg).2 h)).trans (moveTo_stopping hg)

theorem stageOrdered_off (hg : v.bay.defrost.state.granted = true)
    (h : ¬ (v.bay.defrost.grantFeeder = none ∧ v.bay.fuel.state ≠ .normal)) (hoff : v.bay.reading.defrostActive = false) :
    v.stageOrdered c = v :=
  (if_neg (mt (fuelStop_iff hg).1 h)).trans (if_neg (by rw [hoff]; decide))

/-- A frame that heats under the echo of another order (R96). -/
def BayEntry.echoConds (e : BayEntry) : List (AlertKind × Condition) :=
  if e.reading.echo = e.defrost.orderNumber then []
  else
    [(.defrost,
      ⟨.echoMismatch, e.reading.arrival, .order e.defrost.orderNumber e.defrost.grantFeeder,
        BitVec.ofNat 32 e.reading.echo.toNat⟩)]

theorem stageOrdered_on (hg : v.bay.defrost.state.granted = true)
    (h : ¬ (v.bay.defrost.grantFeeder = none ∧ v.bay.fuel.state ≠ .normal)) (hon : v.bay.reading.defrostActive = true) :
    v.stageOrdered c = v.plus (v.bay.running v.bay.defrost c.params.maxDefrost) [] [] v.bay.echoConds := by
  refine (if_neg (mt (fuelStop_iff hg).1 h)).trans ((if_pos hon).trans ?_)
  unfold BayEntry.echoConds
  by_cases he : v.bay.reading.echo = v.bay.defrost.orderNumber
  · rw [if_pos he, if_pos he]
    exact moveTo_running hg
  · rw [if_neg he, if_neg he]
    refine (moveTo_running (v := v.raises .defrost _) hg).trans ?_
    simp only [Work.plus, List.append_nil]
    rfl

theorem stageRunning_stops (hg : v.bay.defrost.state.granted = true) (hon : v.bay.reading.defrostActive = true)
    (h : v.bay.defrost.grantFeeder = none ∧ v.bay.fuel.state ≠ .normal) :
    v.stageRunning c = v.plus (v.bay.stopping v.bay.defrost c.params.stopWindow) [] [.pends] [] :=
  (if_neg (by rw [hon]; decide)).trans ((if_pos ((fuelStop_iff hg).2 h)).trans (moveTo_stopping hg))

theorem stageRunning_kept (hg : v.bay.defrost.state.granted = true) (hon : v.bay.reading.defrostActive = true)
    (h : ¬ (v.bay.defrost.grantFeeder = none ∧ v.bay.fuel.state ≠ .normal)) : v.stageRunning c = v :=
  (if_neg (by rw [hon]; decide)).trans (if_neg (mt (fuelStop_iff hg).1 h))

/-! ## The end of a defrost (R97, R98) -/

/-- The record of a bay whose defrost has ended, before it leaves its state. -/
def Work.ending (w : Work) : Work := w.defrost { w.bay.defrost with lastEnd := some w.bay.reading.arrival, attempts := 0 }

/-- Leaving the state adds the reports and tells given, with `x` the record left. -/
structure Leaves (v : Work) (x : DefrostRecord) (reports : List Report) (orders : List OrderTell) : Prop where
  eq : ∀ new, DefrostState.granted new = false →
    v.ending.leave new =
      v.plus { v.bay with defrost := { x with lastEnd := some v.bay.reading.arrival, attempts := 0 } } reports orders []

theorem leaves_self (h : v.bay.defrost.state = .self) : Leaves v v.bay.defrost [.selfLeave v.bay.feeder] [] := by
  refine ⟨fun new _ => ?_⟩
  rw [leave_self (w := v.ending) h]
  simp only [Work.plus, List.append_nil]
  rfl

theorem leaves_granted (h : v.bay.defrost.state.granted = true) :
    Leaves v { v.bay.defrost with grantFeeder := none, pending := startWithdrawn v.bay.defrost }
      (releaseReport v.bay.defrost) (withdrawTells v.bay.defrost) := by
  refine ⟨fun new hnew => ?_⟩
  rw [leave_granted (w := v.ending) h, if_neg (by rw [hnew]; decide), release_eq]
  simp only [Work.plus, List.append_nil]
  rfl

variable {x : DefrostRecord} {reports : List Report} {orders : List OrderTell}

theorem defrostEnds_drains (h : Leaves v x reports orders) (hd : 0 < c.params.drainTime) :
    v.defrostEnds c =
      v.plus
        (v.bay.timed
          { x with
            state := .draining, lastEnd := some v.bay.reading.arrival, attempts := 0,
            timer := .running c.params.drainTime c.params.drainTime }) reports orders [] := by
  have hmove : v.defrostEnds c = v.ending.moveTo c.params .draining := rfl
  rw [hmove, moveTo_eq (.inr (Nat.ne_of_gt hd)), h.eq .draining rfl, enter_draining]
  rfl

theorem defrostEnds_rests (h : Leaves v x reports orders) (hd : c.params.drainTime = 0) :
    v.defrostEnds c =
      v.plus
        (v.bay.timed
          { x with
            state := .idle, lastEnd := some v.bay.reading.arrival, attempts := 0, iceCount := 0, grantFeeder := none,
            timer := .stopped }) reports orders [] := by
  have hmove : v.defrostEnds c = v.ending.moveTo c.params .draining := rfl
  rw [hmove, moveTo_draining_zero hd, h.eq .idle rfl, enter_idle]
  rfl
end

end Sys2Proof.Machine

/-! PROOFS. O41: the settling of the defrost stage. -/

namespace Sys2Proof.Machine

/-! ## The stage by the state found (R93) -/

section
variable {c : Ctx} {w v : Work}

theorem defrostStage_idle (hv : w.countIce = v) (h : v.bay.defrost.state = .idle) : w.defrostStage c = v.stageIdle c := by
  simp only [Work.defrostStage, hv, h]

theorem defrostStage_draining (hv : w.countIce = v) (h : v.bay.defrost.state = .draining) :
    w.defrostStage c = v.stageDraining c := by
  simp only [Work.defrostStage, hv, h]

theorem defrostStage_due (hv : w.countIce = v) (h : v.bay.defrost.state = .due) : w.defrostStage c = v.stageDue c := by
  simp only [Work.defrostStage, hv, h]

theorem defrostStage_ordered (hv : w.countIce = v) (h : v.bay.defrost.state = .ordered) :
    w.defrostStage c = v.stageOrdered c := by
  simp only [Work.defrostStage, hv, h]

theorem defrostStage_running (hv : w.countIce = v) (h : v.bay.defrost.state = .running) :
    w.defrostStage c = v.stageRunning c := by
  simp only [Work.defrostStage, hv, h]

theorem defrostStage_heating (hv : w.countIce = v) (h : v.bay.defrost.state = .stopping ∨ v.bay.defrost.state = .self) :
    w.defrostStage c = v.stageHeating c := by
  rcases h with h | h <;> simp only [Work.defrostStage, hv, h]

/-- A frame that heats in IDLE or DRAINING (R94). -/
theorem defrostStage_unordered (hv : w.countIce = v)
    (h : v.bay.defrost.state = .idle ∨ v.bay.defrost.state = .draining) (hon : v.bay.reading.defrostActive = true) :
    w.defrostStage c = v.unordered c := by
  rcases h with h | h
  · exact (defrostStage_idle hv h).trans (if_pos hon)
  · exact (defrostStage_draining hv h).trans (if_pos hon)

/-- A frame that does not heat ends the defrost (R97, R98). -/
theorem defrostStage_ends (hv : w.countIce = v)
    (h : v.bay.defrost.state = .running ∨ v.bay.defrost.state = .stopping ∨ v.bay.defrost.state = .self)
    (hoff : v.bay.reading.defrostActive = false) : w.defrostStage c = v.defrostEnds c := by
  have hnot : (!v.bay.reading.defrostActive) = true := by rw [hoff]; rfl
  rcases h with h | h
  · exact (defrostStage_running hv h).trans (if_pos hnot)
  · exact (defrostStage_heating hv h).trans (if_pos hnot)
end

theorem wantsDefrost_iff (p : Params) (e : BayEntry) :
    e.wantsDefrost p = true ↔
      e.settings.defrostInterval.toNat * 60 ≤ (e.reading.arrival - e.defrost.lastEnd.getD e.occStart).toNat
        ∨ p.iceConfirm ≤ e.defrost.iceCount := by
  simp only [BayEntry.wantsDefrost, BayEntry.intervalDemand, Bool.or_eq_true, decide_eq_true_eq]

/-- Settles O41: the rows of R94-R98, each as the lemma of its transition. -/
theorem defrostStageFollowsItsTables : Obligations.DefrostStageFollowsItsTables := by
  unfold Obligations.DefrostStageFollowsItsTables
  intro c w w' e d ice on hw' he hon hread hice hd
  subst he hon
  have hcount : w.countIce = ⟨{ w.bay with defrost := d }, w.reports, w.orders, w.conds⟩ := by
    unfold Work.countIce
    simp only [iced_iff]
    rw [← hice, ← hd]
    rfl
  have hiceCount : d.iceCount = ice := by rw [hd]
  clear hice hd
  intro result kept timed ordered engineStart running stopping toSelf unordered demand late shore engineReady fuelStop leaves
  let v : Work := ⟨{ w.bay with defrost := d }, w.reports, w.orders, w.conds⟩
  have hv : w.countIce = v := hcount
  have hsame (h : w.defrostStage c = v) : result (kept d) [] [] [] := hw'.trans (h.trans v.plus_nothing.symm)
  have hnot {x : Bool} (h : x = false) : ¬ x = true := Bool.eq_false_iff.1 h
  have hwants : v.bay.wantsDefrost c.params = true ↔ demand := by
    refine (wantsDefrost_iff c.params v.bay).trans ?_
    show (_ ∨ _ ≤ d.iceCount) ↔ _
    rw [hiceCount]
  refine ⟨fun hs hoff hno => ?_, fun hs hoff hyes => ?_, fun hs hon => ?_, fun hs hoff => ?_, fun hs hoff => ?_,
    fun hs hon hlate => ?_, fun hs hon hrefused => ?_, fun hs => ?_, fun hs hoff x reports orders hself hgranted => ?_,
    fun hs hon => ?_, fun hs hon => ?_⟩
  · exact hsame ((defrostStage_idle hv hs).trans ((if_neg (hnot hoff)).trans (if_neg (mt hwants.1 hno))))
  · have hdemand : w.defrostStage c = v.demand c :=
      (defrostStage_idle hv hs).trans ((if_neg (hnot hoff)).trans (if_pos (hwants.2 hyes)))
    exact ⟨fun hshore => hw'.trans (hdemand.trans (demand_shore (v := v) (.inl hs) hread hshore)),
      fun hshore hengine => hw'.trans (hdemand.trans (demand_engine (v := v) (.inl hs) hread hshore hengine)),
      fun hshore hengine => hw'.trans (hdemand.trans (demand_held (v := v) (.inl hs) hshore hengine))⟩
  · have hcode : d.state.code.setWidth 32 = if d.state = .idle then 0 else 5 := by
      rcases hs with hs | hs <;> (rw [hs]; rfl)
    have hunordered := (defrostStage_unordered (c := c) hv hs hon).trans (unordered_resting (v := v) hs)
    refine hw'.trans (hunordered.trans ?_)
    show v.plus _ _ _ [(.defrost, ⟨_, _, _, d.state.code.setWidth 32⟩)] = _
    rw [hcode]
    rfl
  · exact hsame ((defrostStage_draining hv hs).trans (if_neg (hnot hoff)))
  · have hreroute : w.defrostStage c = v.reroute c := (defrostStage_due hv hs).trans (if_neg (hnot hoff))
    exact ⟨fun hq hshore => hsame (hreroute.trans (reroute_kept (v := v) hq hshore)),
      fun hq hshore => hw'.trans (hreroute.trans (reroute_joins (v := v) hq hread hshore)),
      fun hshore hengine => hw'.trans (hreroute.trans (reroute_engine (v := v) hread hshore hengine)),
      fun hshore hengine => hw'.trans (hreroute.trans (reroute_held (v := v) hshore hengine))⟩
  · have hstart : w.defrostStage c = v.stageLateStart c :=
      (defrostStage_due hv hs).trans ((if_pos hon).trans (if_pos ((lateStart_iff v.bay).2 hlate)))
    exact ⟨fun hshore hroom => hw'.trans (hstart.trans (stageLateStart_shore (v := v) hshore hroom)),
      fun hshore hengine => hw'.trans (hstart.trans (stageLateStart_engine (v := v) hs hshore hengine))⟩
  · have hunordered : w.defrostStage c = v.unordered c := by
      refine (defrostStage_due hv hs).trans ((if_pos hon).trans ?_)
      by_cases hlate : v.bay.lateStart = true
      · rw [if_pos hlate]
        refine stageLateStart_refused (v := v) (hrefused.resolve_left fun hno => hno ((lateStart_iff v.bay).1 hlate))
      · rw [if_neg hlate]
    exact hw'.trans (hunordered.trans (unordered_due (v := v) hs))
  · have hg : v.bay.defrost.state.granted = true := by
      show d.state.granted = true
      rw [hs]
      rfl
    have hstage := defrostStage_ordered (c := c) hv hs
    exact ⟨fun hstop => hw'.trans (hstage.trans (stageOrdered_stops (v := v) hg hstop)),
      fun hno hoff => hsame (hstage.trans (stageOrdered_off (v := v) hg hno hoff)),
      fun hno hon => hw'.trans (hstage.trans (stageOrdered_on (v := v) hg hno hon))⟩
  · have hends : w.defrostStage c = v.defrostEnds c := defrostStage_ends hv hs hoff
    have hleaves : Leaves v x reports orders := by
      by_cases hstate : d.state = .self
      · obtain ⟨rfl, rfl, rfl⟩ := hself hstate
        exact leaves_self (v := v) hstate
      · obtain ⟨rfl, rfl, rfl⟩ := hgranted hstate
        refine leaves_granted (v := v) ?_
        show d.state.granted = true
        rcases hs with hs | hs | hs
        · rw [hs]
          rfl
        · rw [hs]
          rfl
        · exact absurd hs hstate
    exact ⟨fun hdrain => hw'.trans (hends.trans (defrostEnds_drains hleaves hdrain)),
      fun hdrain => hw'.trans (hends.trans (defrostEnds_rests hleaves hdrain))⟩
  · have hg : v.bay.defrost.state.granted = true := by
      show d.state.granted = true
      rw [hs]
      rfl
    have hstage := defrostStage_running (c := c) hv hs
    exact ⟨fun hstop => hw'.trans (hstage.trans (stageRunning_stops (v := v) hg hon hstop)),
      fun hno => hsame (hstage.trans (stageRunning_kept (v := v) hg hon hno))⟩
  · refine hsame ((defrostStage_heating hv hs).trans (if_neg ?_))
    show ¬ (!w.bay.reading.defrostActive) = true
    rw [hon]
    decide

end Sys2Proof.Machine

/-! PROOFS. O43, O44: the expiries of a bay's timers (R57, R67-R70, R75, R99-R102, R144). -/

namespace Sys2Proof.Machine

/-! ## When an expiry occurs -/

theorem due_iff (t : Timer) : t.due = true ↔ ∃ n, t = .running 0 n := by
  cases t with
  | running left n => cases left <;> simp [Timer.due]
  | stopped | expired n => simp [Timer.due]

theorem timerDue_iff {s : State} (hs : Live s) (b : BayNo) (t : BayTimer) : s.timerDue b t = true ↔ ∃ n, RunOut s b t n := by
  simp only [State.timerDue, Bool.and_eq_true, beq_iff_eq, due_iff]
  constructor
  · rintro ⟨hm, n, ht⟩
    exact ⟨n, hs, hm, ht⟩
  · rintro ⟨n, -, hm, ht⟩
    exact ⟨hm, n, ht⟩

/-- An expiry row is the event of its timer's running out. -/
theorem exec_of_expiry {s : State} {b : BayNo} {t : BayTimer} {c : Instr} (hc : ExpiryOf s b t c) (hs : Live s) :
    exec c s = .next (if s.timerDue b t then settle (timerExpires b t s) else s) := by
  have hdefrost {d : DefrostState} (hd : (s.bay b).defrost.state = d) : s.defrostDue b d = s.timerDue b .defrost := by
    unfold State.defrostDue
    rw [hd, beq_self_eq_true, Bool.and_true]
  have hstate {d : DefrostState} (hd : (s.bay b).defrost.state = d) :
      event s (fun s => s.defrostDue b d) (timerExpires b .defrost)
        = .next (if s.timerDue b .defrost then settle (timerExpires b .defrost s) else s) := by
    rw [event_of_live hs, ← hdefrost hd]
    rfl
  cases hc with
  | silence | door => exact event_of_live hs
  | startWindow hd | maxDefrost hd | stopWindow hd | drain hd => exact hstate hd

theorem exec_expiry_idles {s : State} {b : BayNo} {t : BayTimer} {c : Instr} (hc : ExpiryOf s b t c) (hs : Live s)
    (h : ∀ n, ¬ RunOut s b t n) : exec c s = .next s := by
  rw [exec_of_expiry hc hs, if_neg (mt (timerDue_iff hs b t).1 (not_exists.2 h))]

theorem exec_expiry {s : State} {b : BayNo} {t : BayTimer} {n : Nat} {c : Instr} (hc : ExpiryOf s b t c)
    (h : RunOut s b t n) :
    exec c s = .next (settle (offerHeld b (.expiry t false) (s.setBay b ((s.bay b).putTimer t (.expired n))))) := by
  have hlength : ((s.bay b).timer t).length = n := by rw [h.2.2]; rfl
  rw [exec_of_expiry hc h.1, if_pos ((timerDue_iff h.1 b t).2 ⟨n, h⟩)]
  simp only [timerExpires, hlength]

/-! ## Where an expiry goes (R67, R70) -/

section
variable {s : State} {b : BayNo} {ev : BayEvent}

theorem setBay_setBay (s : State) (b : BayNo) (x y : BayEntry) : (s.setBay b x).setBay b y = s.setBay b y :=
  congrArg (fun bays => { s with bays := bays }) (Vector.set_set ..)

theorem offerHeld_locked (hl : s.locked b = true) :
    offerHeld b ev s = s.setBay b { s.bay b with held := (s.bay b).held ++ [ev] } := if_pos hl

theorem offerHeld_behind (hl : s.locked b = false) (hf : (s.bay b).inFlight = true) :
    offerHeld b ev s = s.setBay b { s.bay b with waiting := (s.bay b).waiting ++ [ev] } :=
  (if_neg (by rw [hl]; decide)).trans (if_pos hf)

theorem offerHeld_free (hl : s.locked b = false) (hf : (s.bay b).inFlight = false) :
    offerHeld b ev s = startEvent b ev s := (if_neg (by rw [hl]; decide)).trans (if_neg (by rw [hf]; decide))

theorem putTimer_keeps (e : BayEntry) (t : BayTimer) (x : Timer) :
    (e.putTimer t x).waiting = e.waiting ∧ (e.putTimer t x).held = e.held ∧ (e.putTimer t x).inFlight = e.inFlight
      ∧ (e.putTimer t x).feeder = e.feeder := by
  cases t <;> exact ⟨rfl, rfl, rfl, rfl⟩

theorem updateBegun_setBay (s : State) (b : BayNo) (x e : BayEntry) (full : Bool) :
    updateBegun (s.setBay b x) b e full = updateBegun s b e full := by
  have hset : (s.bays.set b x).set b { e with inFlight := true } = s.bays.set b { e with inFlight := true } := Vector.set_set ..
  have hbegun : updateBegun (s.setBay b x) b e full =
      { updateBegun s b e full with bays := (s.bays.set b x).set b { e with inFlight := true } } := rfl
  rw [hbegun, hset]
  rfl
end

/-! ## An expiry at a free bay -/

section
variable {s : State} {b : BayNo} {t : BayTimer} {n : Nat} {c : Instr}

/-- The entry of an update that an expiry begins. -/
def expiringEntry (s : State) (b : BayNo) (t : BayTimer) (n : Nat) : BayEntry := (copied s b).putTimer t (.expired n)

theorem FreeBay.expiring (h : FreeBay s b) (t u : BayTimer) (n : Nat) : (expiringEntry s b t n).markStale u = expiringEntry s b t n := by
  obtain ⟨-, hw, hh, -, -⟩ := h
  obtain ⟨hw', hh', -, -⟩ := putTimer_keeps (copied s b) t (.expired n)
  exact BayEntry.markStale_of_nothing (e := expiringEntry s b t n) (hw'.trans hw) (hh'.trans hh) u

theorem startWork_expiring (s : State) (b : BayNo) (t : BayTimer) (n : Nat) :
    startWork b (s.setBay b ((s.bay b).putTimer t (.expired n))) = Work.start (expiringEntry s b t n) := by
  unfold startWork
  rw [setBay_bay_self]
  cases t <;> rfl

theorem exec_expiry_free (hc : ExpiryOf s b t c) (hr : RunOut s b t n) (hf : FreeBay s b) {w : Work}
    (hw : (Work.start (expiringEntry s b t n)).expires (s.ctx b) t = w) :
    exec c s =
      .next (settle (feederReports b w.reports { updateBegun s b w.bay false with sources := toldOf b w s })) := by
  obtain ⟨hflight, -, -, -, hlocked⟩ := hf
  obtain ⟨-, -, hflight', hfeeder⟩ := putTimer_keeps (s.bay b) t (.expired n)
  have hctx : (s.setBay b ((s.bay b).putTimer t (.expired n))).ctx b = s.ctx b := by
    unfold State.ctx
    rw [setBay_bay_self, hfeeder]
    rfl
  have hbegins : offerHeld b (.expiry t false) (s.setBay b ((s.bay b).putTimer t (.expired n)))
      = update b (Work.expires (s.ctx b) t) (s.setBay b ((s.bay b).putTimer t (.expired n))) := by
    rw [offerHeld_free (s := s.setBay b ((s.bay b).putTimer t (.expired n))) hlocked (by rw [setBay_bay_self, hflight', hflight]), ← hctx]
    rfl
  have htold : toldOf b w (s.setBay b ((s.bay b).putTimer t (.expired n))) = toldOf b w s := by
    rw [toldOf_eq, toldOf_eq]
    rfl
  rw [exec_expiry hc hr, hbegins, update_begun, startWork_expiring, hw, htold, updateBegun_setBay]
end

theorem silenceExpires_eq (c : Ctx) (w : Work) :
    w.silenceExpires c =
      ⟨{ w.bay.markStale .silence with silent := true, silentSince := c.now, silence := .stopped }, w.reports, w.orders,
        w.conds
          ++ [(.link,
            ⟨.silent, c.now, .radio (w.bay.radio.getD 0) w.bay.reading.seq,
              c.now - (if w.bay.readingHeld then w.bay.reading.arrival else w.bay.occStart)⟩)]⟩ := rfl

theorem doorExpires_eq (c : Ctx) (w : Work) :
    w.doorExpires c =
      ⟨{ w.bay.markStale .door with door := { w.bay.door with state := .openLong, timer := .stopped } }, w.reports, w.orders,
        w.conds
          ++ [(.door,
            ⟨.openLong, c.now, .radio (w.bay.radio.getD 0) w.bay.reading.seq, c.now - w.bay.door.since⟩)]⟩ := rfl

/-- Settles O43: `exec_expiry` at a free, a locked and a busy bay. -/
theorem silenceAndDoorExpiriesBeginUpdates : Obligations.SilenceAndDoorExpiriesBeginUpdates := by
  unfold Obligations.SilenceAndDoorExpiriesBeginUpdates
  refine ⟨fun b n s hf => ⟨fun hr => ?_, fun hr => ?_⟩, fun c b t s hc => ⟨fun n hr => ?_, exec_expiry_idles hc⟩⟩
  · have hexpires := silenceExpires_eq (s.ctx b) (Work.start (expiringEntry s b .silence n))
    have hstale : (Work.start (expiringEntry s b .silence n)).bay.markStale .silence = expiringEntry s b .silence n :=
      hf.expiring .silence .silence n
    rw [hstale] at hexpires
    refine (exec_expiry_free .silence hr hf hexpires).trans ?_
    show Host.Outcome.next (settle (feederReports b [] _)) = _
    rw [feederReports_nil]
    rfl
  · have hexpires := doorExpires_eq (s.ctx b) (Work.start (expiringEntry s b .door n))
    have hstale : (Work.start (expiringEntry s b .door n)).bay.markStale .door = expiringEntry s b .door n :=
      hf.expiring .door .door n
    rw [hstale] at hexpires
    refine (exec_expiry_free .door hr hf hexpires).trans ?_
    show Host.Outcome.next (settle (feederReports b [] _)) = _
    rw [feederReports_nil]
    rfl
  · obtain ⟨-, -, hflight, -⟩ := putTimer_keeps (s.bay b) t (.expired n)
    intro e
    refine ⟨fun hl => ?_, fun hl hf => ?_⟩
    · rw [exec_expiry hc hr, offerHeld_locked (s := s.setBay b ((s.bay b).putTimer t (.expired n))) hl, setBay_bay_self, setBay_setBay]
      rfl
    · rw [exec_expiry hc hr, offerHeld_behind (s := s.setBay b ((s.bay b).putTimer t (.expired n))) hl
        (by rw [setBay_bay_self, hflight, hf]), setBay_bay_self, setBay_setBay]
      rfl

/-! ## The defrost timer's expiries (R99-R102) -/

section
variable {c : Ctx} {w : Work}

theorem expires_ordered (h : w.bay.defrost.state = .ordered) : w.expires c .defrost = w.startWindowExpires c := by
  simp only [Work.expires, h]

theorem expires_running (h : w.bay.defrost.state = .running) : w.expires c .defrost = w.maxDefrostExpires c := by
  simp only [Work.expires, h]

theorem expires_stopping (h : w.bay.defrost.state = .stopping) : w.expires c .defrost = w.stopWindowExpires c := by
  simp only [Work.expires, h]

theorem expires_draining (h : w.bay.defrost.state = .draining) : w.expires c .defrost = w.drainExpires c := by
  simp only [Work.expires, h]

/-- The record whose grant is released. -/
def DefrostRecord.released (d : DefrostRecord) : DefrostRecord :=
  { d with grantFeeder := none, pending := startWithdrawn d }

/-- The start window's expiry below max attempts: the bay is routed again (R99). -/
theorem startWindowExpires_again {b : BayNo} {q q' : Sources} {e : BayEntry} {reports : List Report}
    (h : w.bay.defrost.state = .ordered) (ha : w.bay.defrost.attempts + 1 < c.params.maxAttempts)
    (hstale : w.bay.markStale .defrost = w.bay)
    (hr : Routed c.params.startWindow c.now b
      { w.bay with
        defrost :=
          { w.bay.defrost.released with state := .due, attempts := w.bay.defrost.attempts + 1, timer := .stopped } }
      q e reports q') :
    ∃ tells, w.startWindowExpires c =
        ⟨e, w.reports ++ releaseReport w.bay.defrost ++ reports, w.orders ++ withdrawTells w.bay.defrost ++ tells, w.conds⟩
      ∧ ordersTold b c.now tells q = q' := by
  have hg : w.bay.defrost.state.granted = true := by rw [h]; rfl
  have hexpires : w.startWindowExpires c =
      (w.defrost { w.bay.defrost with attempts := w.bay.defrost.attempts + 1 }).enterDue c := if_pos ha
  have hmove : (w.defrost { w.bay.defrost with attempts := w.bay.defrost.attempts + 1 }).moveTo c.params .due =
      ⟨{ w.bay.markStale .defrost with
          defrost :=
            { w.bay.defrost.released with state := .due, attempts := w.bay.defrost.attempts + 1, timer := .stopped } },
        w.reports ++ releaseReport w.bay.defrost, w.orders ++ withdrawTells w.bay.defrost, w.conds⟩ := by
    rw [moveTo_ne (new := .due) nofun,
      leave_granted (w := w.defrost { w.bay.defrost with attempts := w.bay.defrost.attempts + 1 }) hg, if_neg (by decide),
      release_eq, enter_due]
    rfl
  rw [hexpires]
  unfold Work.enterDue
  rw [hmove, hstale]
  exact Routed.routePower (c := c) (w := ⟨_, _, _, _⟩) hr
    (congrArg (fun x : BayEntry => { x with
      defrost :=
        { w.bay.defrost.released with state := .due, attempts := w.bay.defrost.attempts + 1, timer := .stopped } }) hstale)

theorem moveTo_idle_granted {p : Params} {v : Work} (h : v.bay.defrost.state.granted = true) :
    v.moveTo p .idle =
      ⟨v.bay.timed { v.bay.defrost.released with state := .idle, attempts := 0, iceCount := 0, timer := .stopped },
        v.reports ++ releaseReport v.bay.defrost, v.orders ++ withdrawTells v.bay.defrost, v.conds⟩ := by
  rw [moveTo_ne (new := .idle) nofun, leave_granted h, if_neg (by decide), release_eq, enter_idle]
  rfl

theorem moveTo_self_granted {p : Params} {v : Work} (h : v.bay.defrost.state.granted = true) :
    v.moveTo p .self =
      ⟨v.bay.timed { v.bay.defrost.released with state := .self, timer := .stopped },
        v.reports ++ releaseReport v.bay.defrost ++ [.selfJoin v.bay.feeder], v.orders ++ withdrawTells v.bay.defrost,
        v.conds⟩ := by
  rw [moveTo_ne (new := .self) nofun, leave_granted h, if_neg (by decide), release_eq, enter_self]
  rfl

/-- The start window's expiry at max attempts (R99). -/
theorem startWindowExpires_ends (h : w.bay.defrost.state = .ordered)
    (ha : c.params.maxAttempts ≤ w.bay.defrost.attempts + 1) :
    w.startWindowExpires c =
      w.plus
        (w.bay.timed
          { w.bay.defrost.released with
            state := .idle, attempts := 0, iceCount := 0, timer := .stopped, lastEnd := some c.now })
        (releaseReport w.bay.defrost) (withdrawTells w.bay.defrost)
        [(.defrost,
          ⟨.noStart, c.now, .order w.bay.defrost.orderNumber w.bay.defrost.grantFeeder,
            BitVec.ofNat 32 (w.bay.defrost.attempts + 1)⟩)] := by
  have hg : w.bay.defrost.state.granted = true := by rw [h]; rfl
  exact (if_neg (Nat.not_lt.2 ha)).trans (moveTo_idle_granted hg)

theorem maxDefrostExpires_eq (h : w.bay.defrost.state = .running) :
    w.maxDefrostExpires c =
      w.plus (w.bay.stopping w.bay.defrost c.params.stopWindow) [] [.pends]
        [(.defrost,
          ⟨.overrun, c.now, .order (nextOrderNumber w.bay.defrost.orderNumber) w.bay.defrost.grantFeeder,
            BitVec.ofNat 32 w.bay.defrost.timer.length⟩)] := by
  have hg : w.bay.defrost.state.granted = true := by rw [h]; rfl
  unfold Work.maxDefrostExpires
  rw [moveTo_stopping hg]
  simp only [Work.plus, List.append_nil]
  rfl

theorem stopWindowExpires_eq (h : w.bay.defrost.state = .stopping) :
    w.stopWindowExpires c =
      w.plus (w.bay.timed { w.bay.defrost.released with state := .self, timer := .stopped })
        (releaseReport w.bay.defrost ++ [.selfJoin w.bay.feeder]) (withdrawTells w.bay.defrost)
        [(.defrost,
          ⟨.noStop, c.now, .order w.bay.defrost.orderNumber w.bay.defrost.grantFeeder,
            BitVec.ofNat 32 w.bay.defrost.timer.length⟩)] := by
  have hg : w.bay.defrost.state.granted = true := by rw [h]; rfl
  refine (moveTo_self_granted (v := w.raises .defrost _) hg).trans ?_
  simp only [Work.plus, ← List.append_assoc]
  rfl

theorem drainExpires_eq (h : w.bay.defrost.state = .draining) :
    w.drainExpires c =
      w.plus
        (w.bay.timed
          { w.bay.defrost with state := .idle, attempts := 0, iceCount := 0, grantFeeder := none, timer := .stopped })
        [] [] [] := by
  unfold Work.drainExpires
  rw [moveTo_ne (new := .idle) nofun, leave_resting (.inr h), enter_idle]
  simp only [Work.plus, List.append_nil]
  rfl
end

/-- The defrost timer of the entry of an expiry's update. -/
theorem expiring_defrost (s : State) (b : BayNo) (n : Nat) :
    (expiringEntry s b .defrost n).defrost = { (s.bay b).defrost with timer := .expired n } := rfl

/-- What an update with the entry `e`, and what it reports and tells, leaves. -/
theorem exec_defrost_expiry {s : State} {b : BayNo} {n : Nat} {c : Instr} (hc : ExpiryOf s b .defrost c)
    (hr : RunOut s b .defrost n) (hf : FreeBay s b) {e : BayEntry} {reports : List Report} {tells : List OrderTell}
    {conds : List (AlertKind × Condition)} {q : Sources}
    (hw : (Work.start (expiringEntry s b .defrost n)).expires (s.ctx b) .defrost = ⟨e, reports, tells, conds⟩)
    (hq : condsRaised b conds (ordersTold b s.clock.time tells s.sources) = q) :
    exec c s = .next (settle (feederReports b reports { updateBegun s b e false with sources := q })) := by
  have htold : toldOf b ⟨e, reports, tells, conds⟩ s = q := (toldOf_eq b _ s).trans hq
  rw [exec_expiry_free hc hr hf hw, htold]

theorem FreeBay.timed {s : State} {b : BayNo} (hf : FreeBay s b) (n : Nat) (x : DefrostRecord) :
    (expiringEntry s b .defrost n).timed x = { copied s b with defrost := x } :=
  congrArg (fun e : BayEntry => { e with defrost := x }) (hf.expiring .defrost .defrost n)

/-- An expiry that leaves the record `x` and starts or stops the timer. -/
theorem exec_defrost_expiry_timed {s : State} {b : BayNo} {n : Nat} {c : Instr} {x : DefrostRecord} {reports : List Report}
    {tells : List OrderTell} {conds : List (AlertKind × Condition)} {q : Sources} (hr : RunOut s b .defrost n)
    (hf : FreeBay s b) (hc : ExpiryOf s b .defrost c)
    (hw : (Work.start (expiringEntry s b .defrost n)).expires (s.ctx b) .defrost
      = (Work.start (expiringEntry s b .defrost n)).plus ((expiringEntry s b .defrost n).timed x) reports tells conds)
    (hq : condsRaised b conds (ordersTold b s.clock.time tells s.sources) = q) :
    exec c s =
      .next
        (settle
          (feederReports b reports { updateBegun s b { copied s b with defrost := x } false with sources := q })) := by
  rw [hf.timed] at hw
  exact exec_defrost_expiry hc hr hf hw hq

/-- Settles O44: the change of each of the four expiries at a free bay. -/
theorem defrostTimersEndTheirStates : Obligations.DefrostTimersEndTheirStates := by
  unfold Obligations.DefrostTimersEndTheirStates
  refine ⟨?_, ?_⟩
  · intro b n s hf hr hs d q
    have htold : ordersTold b s.clock.time (withdrawTells d) s.sources = q := ordersTold_withdrawTells b _ d _
    refine ⟨fun e reports q' ha hrouted => ?_, fun ha => ?_⟩
    · obtain ⟨tells, hagain, hq'⟩ := startWindowExpires_again (c := s.ctx b) (w := Work.start (expiringEntry s b .defrost n)) (b := b)
        (q := q) (q' := q') (e := e) (reports := reports) hs ha (hf.expiring .defrost .defrost n) hrouted
      refine exec_defrost_expiry (tells := withdrawTells d ++ tells) (conds := []) (.startWindow hs) hr hf
        ((expires_ordered hs).trans hagain) ?_
      show ordersTold b s.clock.time (withdrawTells d ++ tells) s.sources = q'
      rw [ordersTold_append, htold]
      exact hq'
    · have hends := startWindowExpires_ends (c := s.ctx b) (w := Work.start (expiringEntry s b .defrost n)) hs ha
      refine (exec_defrost_expiry_timed hr hf (.startWindow hs) ((expires_ordered hs).trans hends)
        (congrArg (fun q => Sources.raiseAlert q b .defrost _) htold)).trans ?_
      rfl
  · intro b n s hf hr d
    refine ⟨fun hs => ?_, fun hs => ?_, fun hs => ?_⟩
    · have hexpires : (Work.start (expiringEntry s b .defrost n)).expires (s.ctx b) .defrost = _ :=
        (expires_running hs).trans (maxDefrostExpires_eq hs)
      refine (exec_defrost_expiry_timed hr hf (.maxDefrost hs) hexpires rfl).trans ?_
      rw [feederReports_nil]
      rfl
    · have hexpires : (Work.start (expiringEntry s b .defrost n)).expires (s.ctx b) .defrost = _ :=
        (expires_stopping hs).trans (stopWindowExpires_eq hs)
      refine (exec_defrost_expiry_timed hr hf (.stopWindow hs) hexpires (congrArg (fun q => Sources.raiseAlert q b .defrost _)
        (ordersTold_withdrawTells b _ d _))).trans ?_
      rfl
    · have hexpires : (Work.start (expiringEntry s b .defrost n)).expires (s.ctx b) .defrost = _ :=
        (expires_draining hs).trans (drainExpires_eq hs)
      refine (exec_defrost_expiry_timed hr hf (.drain hs) hexpires rfl).trans ?_
      rw [feederReports_nil]
      rfl

end Sys2Proof.Machine

/-! PROOFS. O45: the acts of the Feeder Arbiter, and the reports of one update (R82, R91, R108-R113). -/

namespace Sys2Proof.Machine

/-! ## Eligible bays (R111) -/

theorem eligible_iff (s : State) (b : BayNo) :
    eligible s b = true ↔
      (s.bay b).silent = false ∧ (s.bay b).inFlight = false ∧ (s.bay b).waiting = [] ∧ s.locked b = false := by
  simp only [eligible, Bool.and_eq_true, Bool.not_eq_true', List.isEmpty_iff, and_assoc]

theorem canGrant_iff (x : Feeder) : x.canGrant = true ↔ x.state = .active ∧ x.grants.length + x.selfCount < x.capacity := by
  rw [Feeder.canGrant, Bool.and_eq_true, beq_iff_eq, decide_eq_true_eq]
  rfl

theorem eligible_eq_false_of_inFlight {s : State} {b : BayNo} (h : (s.bay b).inFlight = true) : eligible s b = false := by
  simp only [eligible, h, Bool.not_true, Bool.and_false, Bool.false_and]

section
variable {f : FeederNo} {b : BayNo} {s : State}

theorem grant_inFlight (f : FeederNo) (b : BayNo) (s : State) : ((grant f b s).bay b).inFlight = true := by
  rw [grant_bay, if_pos rfl]

theorem grant_bay_ne {c : BayNo} (h : b ≠ c) : (grant f b s).bay c = s.bay c := by
  rw [grant_bay, if_neg h]

/-- A grant makes no other bay eligible. -/
theorem grant_eligible {c : BayNo} (h : eligible s c = false) : eligible (grant f b s) c = false := by
  by_cases hbc : b = c
  · subst hbc
    exact eligible_eq_false_of_inFlight (grant_inFlight f b s)
  · have hlocked : (grant f b s).locked c = s.locked c := rfl
    unfold eligible at h ⊢
    rw [grant_bay_ne hbc, hlocked]
    exact h

/-! ## Along the queue (R112) -/

theorem grantPass_cons_of_not {t : Time} (h : eligible s b = false) (q : List (BayNo × Time)) :
    grantPass f ((b, t) :: q) s = grantPass f q s := by
  rw [grantPass, h, Bool.and_false]
  rfl

theorem grantPass_cons_of_grant {t : Time} (hc : (s.feeder f).canGrant = true) (h : eligible s b = true)
    (q : List (BayNo × Time)) : grantPass f ((b, t) :: q) s = grantPass f q (grant f b s) := by
  rw [grantPass, hc, h]
  rfl

theorem grantPass_append_of_not {l : List (BayNo × Time)} (h : ∀ y ∈ l, eligible s y.1 = false) (q : List (BayNo × Time)) :
    grantPass f (l ++ q) s = grantPass f q s := by
  induction l with
  | nil => rfl
  | cons y l ih =>
    obtain ⟨c, t⟩ := y
    exact (grantPass_cons_of_not (h (c, t) List.mem_cons_self) (l ++ q)).trans
      (ih fun y hy => h y (List.mem_cons_of_mem _ hy))

theorem grantPass_none {l : List (BayNo × Time)} (h : ∀ y ∈ l, eligible s y.1 = false) : grantPass f l s = s := by
  have hnil := grantPass_append_of_not (f := f) h []
  rwa [List.append_nil] at hnil

/-- A bay with an update in flight has no part in a pass. -/
theorem grantPass_filter {s : State} (hb : (s.bay b).inFlight = true) (q : List (BayNo × Time)) :
    grantPass f (q.filter fun y => y.1 != b) s = grantPass f q s := by
  induction q generalizing s with
  | nil => rfl
  | cons y q ih =>
    obtain ⟨c, t⟩ := y
    by_cases hcb : c = b
    · subst hcb
      rw [List.filter_cons_of_neg (by simp), grantPass_cons_of_not (eligible_eq_false_of_inFlight hb)]
      exact ih hb
    · rw [List.filter_cons_of_pos (by simpa using hcb), grantPass, grantPass]
      refine ih ?_
      split
      · rw [grant_bay_ne hcb]
        exact hb
      · exact hb

/-- The arbiter grants the bay nearest the front that is eligible, and acts again (R112). -/
theorem act_grants {t : Time} {before after : List (BayNo × Time)} (hc : (s.feeder f).canGrant = true)
    (hq : (s.feeder f).queue = before ++ (b, t) :: after) (hb : eligible s b = true)
    (hno : ∀ y ∈ before, eligible s y.1 = false) : act f s = act f (grant f b s) := by
  have hfirst : act f s = grantPass f after (grant f b s) := by
    unfold act
    rw [hq, grantPass_append_of_not hno, grantPass_cons_of_grant hc hb]
  have hqueue : ((grant f b s).feeder f).queue
      = before.filter (fun y => y.1 != b) ++ after.filter fun y => y.1 != b := by
    rw [grant_feeder, if_pos rfl]
    show (s.feeder f).queue.filter (fun y => y.1 != b) = _
    rw [hq, List.filter_append, List.filter_cons_of_neg (by simp)]
  have hnone : ∀ y ∈ before.filter (fun y => y.1 != b), eligible (grant f b s) y.1 = false :=
    fun y hy => grant_eligible (hno y (List.mem_of_mem_filter hy))
  rw [hfirst]
  unfold act
  rw [hqueue, grantPass_append_of_not hnone, grantPass_filter (grant_inFlight f b s)]

/-- The grant update of a free bay with nothing held (R91). -/
theorem grant_eq (hw : (s.bay b).waiting = []) (hh : (s.bay b).held = []) :
    grant f b s =
      { updateBegun s b
          { copied s b with
            defrost :=
              { (s.bay b).defrost with
                state := .ordered, grantFeeder := some f,
                timer := .running s.params.startWindow s.params.startWindow,
                orderNumber := nextOrderNumber (s.bay b).defrost.orderNumber, lastKind := some .start,
                pending := some ⟨.start, some f⟩ } }
          false with
        feeders := s.feeders.set f (((s.feeder f).unqueue b).addGrant b)
        sources := s.sources.orderPends b s.clock.time } := by
  have hstale : (copied s b).markStale .defrost = copied s b := BayEntry.markStale_of_nothing (e := copied s b) hw hh _
  have hwork : (startWork b (s.setFeeder f (((s.feeder f).unqueue b).addGrant b))).granted s.params f =
      ⟨{ (copied s b).markStale .defrost with
          defrost :=
            { (s.bay b).defrost with
              state := .ordered, grantFeeder := some f,
              timer := .running s.params.startWindow s.params.startWindow,
              orderNumber := nextOrderNumber (s.bay b).defrost.orderNumber, lastKind := some .start,
              pending := some ⟨.start, some f⟩ } }, [], [.pends], []⟩ := rfl
  have hgrant : grant f b s = commitCore b
      ((startWork b (s.setFeeder f (((s.feeder f).unqueue b).addGrant b))).granted s.params f) false
      (s.setFeeder f (((s.feeder f).unqueue b).addGrant b)) := rfl
  rw [hgrant, hwork, hstale, commitCore_eq]
  rfl
end

/-! ## The reports of one update, in their order (R110) -/

/-- Two lists in the order of `rank` that hold the same at each rank are the same. -/
theorem eq_of_sorted_of_ranks {α : Type} (rank : α → Nat) {l l' : List α} (hl : l.Pairwise fun r r' => rank r ≤ rank r')
    (hl' : l'.Pairwise fun r r' => rank r ≤ rank r')
    (h : ∀ k, (l.filter fun r => rank r == k) = l'.filter fun r => rank r == k) : l = l' := by
  have hmem {l l' : List α} (h : ∀ k, (l.filter fun r => rank r == k) = l'.filter fun r => rank r == k) {a : α} (ha : a ∈ l) :
      a ∈ l' := by
    have hin : a ∈ l.filter fun r => rank r == rank a := List.mem_filter.2 ⟨ha, beq_self_eq_true _⟩
    rw [h] at hin
    exact List.mem_of_mem_filter hin
  induction l generalizing l' with
  | nil => exact (List.eq_nil_iff_forall_not_mem.2 fun a ha => List.not_mem_nil (hmem (fun k => (h k).symm) ha)).symm
  | cons a l ih =>
    cases l' with
    | nil => exact absurd (hmem h List.mem_cons_self) List.not_mem_nil
    | cons b l' =>
      have hle {a b : α} {l l' : List α} (hl : (a :: l).Pairwise fun r r' => rank r ≤ rank r') (hb : b ∈ a :: l) :
          rank a ≤ rank b :=
        (List.mem_cons.1 hb).elim (fun hba => by rw [hba]) fun hb => (List.pairwise_cons.1 hl).1 b hb
      have hrank : rank a = rank b :=
        Nat.le_antisymm (hle (l' := l') hl (hmem (fun k => (h k).symm) List.mem_cons_self))
          (hle (l' := l) hl' (hmem h List.mem_cons_self))
      have hheads := h (rank a)
      rw [List.filter_cons_of_pos (by simp), List.filter_cons_of_pos (by simp [hrank])] at hheads
      obtain ⟨rfl, -⟩ := List.cons.inj hheads
      refine congrArg (a :: ·) (ih (List.pairwise_cons.1 hl).2 (List.pairwise_cons.1 hl').2 fun k => ?_)
      have htails := h k
      by_cases hk : rank a = k
      · rw [List.filter_cons_of_pos (by simpa using hk), List.filter_cons_of_pos (by simpa using hk)] at htails
        exact (List.cons.inj htails).2
      · rw [List.filter_cons_of_neg (by simpa using hk), List.filter_cons_of_neg (by simpa using hk)] at htails
        exact htails

theorem rank_lt (r : Report) : r.rank < 6 := by
  cases r <;> simp [Report.rank]

theorem inReportOrder_sorted (rs : List Report) : (inReportOrder rs).Pairwise fun r r' => r.rank ≤ r'.rank := by
  unfold inReportOrder
  rw [List.pairwise_flatMap]
  refine ⟨fun k _ => ?_, ?_⟩
  · refine List.Pairwise.imp_of_mem (R := fun _ _ => True) (fun hr hr' _ => ?_) (List.pairwise_of_forall fun _ _ => trivial)
    rw [beq_iff_eq.1 (List.mem_filter.1 hr).2, beq_iff_eq.1 (List.mem_filter.1 hr').2]
  · refine List.Pairwise.imp (R := fun k k' => k ≤ k') (fun hk r hr r' hr' => ?_) (by decide)
    rw [beq_iff_eq.1 (List.mem_filter.1 hr).2, beq_iff_eq.1 (List.mem_filter.1 hr').2]
    exact hk

theorem inReportOrder_ranks (rs : List Report) (k : Nat) :
    ((inReportOrder rs).filter fun r => r.rank == k) = rs.filter fun r => r.rank == k := by
  have hsame (j : Nat) : ((rs.filter fun r => r.rank == j).filter fun r => r.rank == k)
      = if j = k then rs.filter fun r => r.rank == k else [] := by
    rw [List.filter_filter]
    split
    · rename_i hjk
      subst hjk
      exact List.filter_congr fun r _ => Bool.and_self _
    · rename_i hjk
      refine List.filter_eq_nil_iff.2 fun r _ hr => ?_
      rw [Bool.and_eq_true, beq_iff_eq, beq_iff_eq] at hr
      exact hjk (hr.2.symm.trans hr.1)
  by_cases hk : k < 6
  · unfold inReportOrder
    simp only [List.flatMap_cons, List.flatMap_nil, List.filter_append, List.filter_nil, hsame]
    interval_cases k <;> simp
  · have hnone (l : List Report) : (l.filter fun r => r.rank == k) = [] :=
      List.filter_eq_nil_iff.2 fun r _ hr => hk (beq_iff_eq.1 hr ▸ rank_lt r)
    rw [hnone, hnone]

theorem inReportOrder_unique {rs l : List Report} (hl : l.Pairwise fun r r' => r.rank ≤ r'.rank)
    (h : ∀ k, (l.filter fun r => r.rank == k) = rs.filter fun r => r.rank == k) : inReportOrder rs = l :=
  eq_of_sorted_of_ranks Report.rank (inReportOrder_sorted rs) hl fun k => (inReportOrder_ranks rs k).trans (h k).symm

theorem feederReports_eq {b : BayNo} {rs l : List Report} {s : State} (h : inReportOrder rs = l) :
    feederReports b rs s =
      allFeeders.foldl (fun u f => if (rs.any fun r => r.feeder == f) = true then act f u else u)
        (l.foldl (applyReport b) s) := by
  unfold feederReports
  rw [List.foldl_filter, h]

/-! ## The reports of one feeder -/

theorem allFeeders_filter (f : FeederNo) : (allFeeders.filter fun g => f == g) = [f] := by
  revert f
  decide

theorem setFeeder_setFeeder (s : State) (f : FeederNo) (x y : Feeder) : (s.setFeeder f x).setFeeder f y = s.setFeeder f y :=
  congrArg (fun feeders => { s with feeders := feeders }) (Vector.set_set ..)

theorem foldl_applyReport {b : BayNo} {f : FeederNo} {l : List Report} (h : ∀ r ∈ l, r.feeder = f) (s : State) :
    l.foldl (applyReport b) s = s.setFeeder f (l.foldl (Report.change b) (s.feeder f)) := by
  induction l generalizing s with
  | nil => exact (setFeeder_self s f).symm
  | cons r l ih =>
    have hr : applyReport b s r = s.setFeeder f (r.change b (s.feeder f)) := by
      unfold applyReport
      rw [h r List.mem_cons_self]
    rw [List.foldl_cons, List.foldl_cons, hr, ih fun r hr => h r (List.mem_cons_of_mem _ hr), setFeeder_feeder_self,
      setFeeder_setFeeder]

/-- The reports of an update that name one feeder change it in their order, and the arbiter acts on it. -/
theorem feederReports_of_feeder {b : BayNo} {f : FeederNo} {rs l : List Report} {s : State} (hne : rs ≠ [])
    (h : ∀ r ∈ rs, r.feeder = f) (hl : inReportOrder rs = l) :
    feederReports b rs s = act f (s.setFeeder f (l.foldl (Report.change b) (s.feeder f))) := by
  have hany : ∀ g, (rs.any fun r => r.feeder == g) = (f == g) := by
    intro g
    rw [Bool.eq_iff_iff, List.any_eq_true, beq_iff_eq]
    refine ⟨fun ⟨r, hr, hg⟩ => (h r hr).symm.trans (beq_iff_eq.1 hg), fun hg => ?_⟩
    obtain ⟨r, hr⟩ := List.exists_mem_of_ne_nil rs hne
    exact ⟨r, hr, beq_iff_eq.2 ((h r hr).trans hg)⟩
  have hmem : ∀ r ∈ l, r.feeder = f := by
    intro r hr
    rw [← hl] at hr
    obtain ⟨k, -, hk⟩ := List.mem_flatMap.1 hr
    exact h r (List.mem_of_mem_filter hk)
  have hfilter : (allFeeders.filter fun g => rs.any fun r => r.feeder == g) = [f] := by
    simp only [hany]
    exact allFeeders_filter f
  unfold feederReports
  rw [hl, foldl_applyReport hmem, hfilter]
  rfl

/-- Settles O45: `act_grants` and `grant_eq`, `inReportOrder_unique`, and the lists an update makes. -/
theorem grantsGoInQueueOrder : Obligations.GrantsGoInQueueOrder := by
  unfold Obligations.GrantsGoInQueueOrder
  refine ⟨?_, ?_, ?_⟩
  · intro f s x eligibleBay
    have heligible (b : BayNo) : eligible s b = true ↔ eligibleBay b := eligible_iff s b
    have hnot {b : BayNo} (h : ¬ eligibleBay b) : eligible s b = false := Bool.eq_false_iff.2 (mt (heligible b).1 h)
    refine ⟨fun h => ?_, fun b t before after hactive hroom hq hb hno hheld => ?_⟩
    · rcases h with h | h | h
      · exact act_of_not_canGrant (Bool.eq_false_iff.2 fun hc => h ((canGrant_iff x).1 hc).1)
      · exact act_of_not_canGrant (canGrant_eq_false h)
      · exact grantPass_none fun y hy => hnot (h y hy)
    · rw [act_grants ((canGrant_iff x).2 ⟨hactive, hroom⟩) hq ((heligible b).2 hb) fun y hy => hnot (hno y hy),
        grant_eq hb.2.2.1 hheld]
      rfl
  · intro b reports inOrder s place feederOf changed applied hsorted hranks
    have hplace : place = Report.rank := by
      funext r
      cases r <;> rfl
    have hfeeder : feederOf = Report.feeder := by
      funext r
      cases r <;> rfl
    have happlied : applied = applyReport b := by
      funext u r
      cases r <;> rfl
    rw [hplace] at hsorted hranks
    rw [hfeeder, happlied]
    exact feederReports_eq (inReportOrder_unique hsorted hranks)
  · intro b f t s x after
    have hreports {r : Report} {rs l : List Report} (h : ∀ q ∈ r :: rs, q.feeder = f) (hl : inReportOrder (r :: rs) = l) :
        feederReports b (r :: rs) s = act f (s.setFeeder f (l.foldl (Report.change b) (s.feeder f))) :=
      feederReports_of_feeder (List.cons_ne_nil r rs) h hl
    refine ⟨feederReports_nil b s, (hreports (by simp [Report.feeder]) rfl).trans (congrArg (act f) (setFeeder_self s f)),
      hreports (by simp [Report.feeder]) rfl,
      hreports (by simp [Report.feeder]) rfl,
      hreports (by simp [Report.feeder]) rfl,
      hreports (by simp [Report.feeder]) rfl,
      hreports (by simp [Report.feeder]) rfl,
      hreports (by simp [Report.feeder]) rfl,
      hreports (by simp [Report.feeder]) rfl,
      hreports (by simp [Report.feeder]) rfl,
      hreports (by simp [Report.feeder]) rfl,
      hreports (by simp [Report.feeder]) rfl,
      hreports (by simp [Report.feeder]) rfl,
      hreports (by simp [Report.feeder]) rfl,
      hreports (by simp [Report.feeder]) rfl,
      hreports (by simp [Report.feeder]) rfl,
      hreports (by simp [Report.feeder]) rfl,
      hreports (by simp [Report.feeder]) rfl⟩

end Sys2Proof.Machine

/-! PROOFS. O46, O47: a feeder that trips and a feeder that is restored (R115-R119). -/

namespace Sys2Proof.Machine

/-! ## The revocation of one grant (R115) -/

/-- The bay of a revoked grant goes back to DUE. -/
def Work.backToDue (w : Work) : Work :=
  (w.defrost { w.bay.defrost with state := .due, reason := .queued }).setTimer .defrost .stopped

/-- The bay of a revoked grant heats on without it. -/
def Work.onToSelf (w : Work) : Work := (w.defrost { w.bay.defrost with state := .self }).setTimer .defrost .stopped

/-- The update with the grant feeder gone. -/
def Work.bare (w : Work) : Work := w.defrost { w.bay.defrost with grantFeeder := none }

section
variable {f : FeederNo} {w : Work}

theorem revoke_ordered (h : w.bay.defrost.state = .ordered) :
    w.revoke f =
      if w.bay.defrost.startPending then w.bare.withdrawStart.backToDue else (w.bare.pendOrder .stop (some f)).backToDue := by
  unfold Work.revoke
  split
  · rfl
  all_goals
    rename_i hs
    rw [h] at hs
    cases hs

theorem revoke_running (h : w.bay.defrost.state = .running) : w.revoke f = w.bare.withdrawStart.onToSelf := by
  unfold Work.revoke
  split
  case h_2 => rfl
  all_goals
    rename_i hs
    rw [h] at hs
    cases hs

theorem revoke_stopping (h : w.bay.defrost.state = .stopping) : w.revoke f = w.bare.onToSelf := by
  unfold Work.revoke
  split
  case h_3 => rfl
  all_goals
    rename_i hs
    rw [h] at hs
    cases hs
end

section
variable {f : FeederNo} {d : DefrostRecord}

/-- The records of R115, an equation per row. -/
theorem revokedRecord_ordered_start (h : d.state = .ordered) {o : Option FeederNo} (hp : d.pending = some ⟨.start, o⟩) :
    revokedRecord f d =
      { d with state := .due, reason := .queued, grantFeeder := none, timer := .stopped, pending := none } := by
  unfold revokedRecord
  rw [h, hp]

theorem revokedRecord_ordered (h : d.state = .ordered) (hp : ∀ o, d.pending ≠ some ⟨.start, o⟩) :
    revokedRecord f d =
      { d with
        state := .due, reason := .queued, grantFeeder := none, timer := .stopped,
        orderNumber := nextOrderNumber d.orderNumber, lastKind := some .stop, pending := some ⟨.stop, some f⟩ } := by
  unfold revokedRecord
  split
  · rename_i o _ hp'
    exact absurd hp' (hp o)
  · rfl
  · rename_i hs
    rw [h] at hs
    cases hs
  · rename_i hs _ _
    exact absurd h (by simpa using hs)

theorem revokedRecord_running (h : d.state = .running) :
    revokedRecord f d =
      { d with state := .self, grantFeeder := none, timer := .stopped, pending := startWithdrawn d } := by
  unfold revokedRecord
  rw [h]

theorem revokedRecord_stopping (h : d.state = .stopping) :
    revokedRecord f d = { d with state := .self, grantFeeder := none, timer := .stopped } := by
  unfold revokedRecord
  rw [h]

/-- What the Notice Writer is told of the revocation of a record. -/
def revokedTells (d : DefrostRecord) : List OrderTell :=
  match d.state with
  | .ordered => if d.startPending then [.withdrawn] else [.pends]
  | .running => withdrawTells d
  | _ => []

theorem ordersTold_revokedTells (d : DefrostRecord) (b : BayNo) (now : Time) (q : Sources) :
    ordersTold b now (revokedTells d) q = revokedOrders now b d q := by
  unfold revokedTells revokedOrders withdrawTells DefrostRecord.startPending
  cases d.state <;> cases d.pending with
  | none => rfl
  | some o =>
    obtain ⟨k, x⟩ := o
    cases k <;> rfl
end

/-- What the revocation of feeder `f`'s grant leaves of an entry. -/
def BayEntry.revoked (e : BayEntry) (f : FeederNo) : BayEntry :=
  { e.markStale .defrost with defrost := revokedRecord f e.defrost }

/-- A revocation is the table of R115. -/
theorem revoke_start (f : FeederNo) {e : BayEntry} (hg : e.defrost.state.granted = true) :
    (Work.start e).revoke f = ⟨e.revoked f, [], revokedTells e.defrost, []⟩ := by
  unfold BayEntry.revoked revokedTells
  cases hs : e.defrost.state with
  | idle | due | draining | self =>
    rw [hs] at hg
    cases hg
  | ordered =>
    rw [revoke_ordered (w := Work.start e) hs]
    by_cases hp : e.defrost.startPending = true
    · obtain ⟨o, ho⟩ := (startPending_iff _).1 hp
      have hstart : (Work.start e).bay.defrost.startPending = true := hp
      rw [if_pos hstart, if_pos hp, withdrawStart_eq, revokedRecord_ordered_start hs ho,
        startWithdrawn_of_start (d := (Work.start e).bare.bay.defrost) ho,
        withdrawTells_of_start (d := (Work.start e).bare.bay.defrost) ho]
      rfl
    · have hstart : ¬ (Work.start e).bay.defrost.startPending = true := hp
      have ho : ∀ o, e.defrost.pending ≠ some ⟨.start, o⟩ := fun o ho => hp ((startPending_iff _).2 ⟨o, ho⟩)
      rw [if_neg hstart, if_neg hp, revokedRecord_ordered hs ho]
      rfl
  | running =>
    rw [revoke_running (w := Work.start e) hs, withdrawStart_eq, revokedRecord_running hs]
    rfl
  | stopping =>
    rw [revoke_stopping (w := Work.start e) hs, revokedRecord_stopping hs]
    rfl

/-! ## The revocations of a trip, in grant order -/

section
variable {f : FeederNo} {s : State}

theorem revokeOne_eq {b : BayNo} (hg : (s.bay b).defrost.state.granted = true) :
    revokeOne f s b =
      { s with
        bays := s.bays.set b ((s.bay b).revoked f)
        sources := revokedOrders s.clock.time b (s.bay b).defrost s.sources } := by
  have htold : (tellOrders b (revokedTells (s.bay b).defrost) s).sources
      = revokedOrders s.clock.time b (s.bay b).defrost s.sources :=
    (tellOrders_sources b _ s).trans (ordersTold_revokedTells _ b _ _)
  unfold revokeOne
  simp only [revoke_start f hg]
  rw [← htold]
  rfl

/-- The sources once the grants of `l` are revoked, each bay's record standing as in `s`. -/
def revokedSources (s : State) (l : List BayNo) (q : Sources) : Sources :=
  l.foldl (fun q b => revokedOrders s.clock.time b (s.bay b).defrost q) q

theorem foldl_revokeOne {l : List BayNo} (hl : l.Nodup) (hg : ∀ b ∈ l, (s.bay b).defrost.state.granted = true) :
    l.foldl (revokeOne f) s =
      { s with
        bays := Vector.ofFn fun b => if b ∈ l then (s.bay b).revoked f else s.bay b
        sources := revokedSources s l s.sources } := by
  induction l generalizing s with
  | nil =>
    have hbays : s.bays = Vector.ofFn fun b => s.bay b := by
      ext i hi
      rw [Vector.getElem_ofFn]
      rfl
    simp only [List.foldl_nil, List.not_mem_nil, if_false]
    rw [← hbays]
    rfl
  | cons b l ih =>
    obtain ⟨hb, hl⟩ := List.nodup_cons.1 hl
    have hone := revokeOne_eq (f := f) (hg b List.mem_cons_self)
    have hbay (c : BayNo) : (revokeOne f s b).bay c = if b = c then (s.bay b).revoked f else s.bay c := by
      rw [hone]
      exact setBay_bay s b c _
    have hother {c : BayNo} (hc : c ∈ l) : (revokeOne f s b).bay c = s.bay c := by
      rw [hbay, if_neg fun hbc : b = c => hb (hbc ▸ hc)]
    have hrest := ih (s := revokeOne f s b) hl fun c hc => by
      rw [hother hc]
      exact hg c (List.mem_cons_of_mem _ hc)
    have hbays : (Vector.ofFn fun c => if c ∈ l then ((revokeOne f s b).bay c).revoked f else (revokeOne f s b).bay c)
        = Vector.ofFn fun c => if c ∈ b :: l then (s.bay c).revoked f else s.bay c := by
      congr 1
      funext c
      by_cases hbc : b = c
      · subst hbc
        rw [if_neg hb, if_pos List.mem_cons_self, hbay, if_pos rfl]
      · simp only [hbay, if_neg hbc, List.mem_cons, Ne.symm hbc, false_or]
    have hsources : revokedSources (revokeOne f s b) l (revokeOne f s b).sources
        = revokedSources s (b :: l) s.sources := by
      have hclock : (revokeOne f s b).clock = s.clock := by rw [hone]
      have hfirst : (revokeOne f s b).sources = revokedOrders s.clock.time b (s.bay b).defrost s.sources := by rw [hone]
      unfold revokedSources
      rw [hfirst, hclock, List.foldl_cons]
      refine List.foldl_ext _ _ _ fun q c hc => ?_
      rw [hother hc]
    rw [List.foldl_cons, hrest, hbays, hsources, hone]
end

/-! ## The revocation updates (R70, R115) -/

theorem offerHeld_revocation (b : BayNo) (u : State) :
    offerHeld b .revocation u =
      if u.locked b then { u with bays := u.bays.set b { u.bay b with held := (u.bay b).held ++ [.revocation] } }
      else if (u.bay b).inFlight then
        { u with bays := u.bays.set b { u.bay b with waiting := (u.bay b).waiting ++ [.revocation] } }
      else updateBegun u b (copied u b) false := by
  have hfree : startEvent b .revocation u = updateBegun u b (copied u b) false := by
    have hupdate : startEvent b .revocation u = update b id u := rfl
    have htold : toldOf b (startWork b u) u = u.sources := toldOf_nothing rfl rfl b u
    rw [hupdate, update_begun]
    show feederReports b [] { updateBegun u b (copied u b) false with sources := toldOf b (startWork b u) u } = _
    rw [htold, feederReports_nil]
    rfl
  rw [← hfree]
  rfl

/-! ## The FEEDER_OK lines (R106, R116) -/

section
variable {f : FeederNo} {s : State}

theorem exec_feederOkFall_reset (h : s.pins.resetN = false) : exec (.feederOkFall f) s = .next (s.setLine f false) :=
  if_neg (by rw [h]; decide)

theorem exec_feederOkFall (hs : Live s) (h : s.pins.feederOk[f] = true) :
    exec (.feederOkFall f) s = .next (settle (lineFalls f (s.setLine f false))) :=
  (if_pos hs.1).trans (event_occurs hs h)

theorem exec_feederOkFall_low (hs : Live s) (h : s.pins.feederOk[f] = false) : exec (.feederOkFall f) s = .next s :=
  (if_pos hs.1).trans (event_idles hs h)

theorem exec_feederOkRise_reset (h : s.pins.resetN = false) : exec (.feederOkRise f) s = .next (s.setLine f true) :=
  if_neg (by rw [h]; decide)

theorem exec_feederOkRise (hs : Live s) (h : s.pins.feederOk[f] = false) :
    exec (.feederOkRise f) s = .next (settle (lineRises f (s.setLine f true))) :=
  (if_pos hs.1).trans (event_occurs hs (by rw [h]; rfl))

theorem exec_feederOkRise_high (hs : Live s) (h : s.pins.feederOk[f] = true) : exec (.feederOkRise f) s = .next s :=
  (if_pos hs.1).trans (event_idles hs (by rw [h]; rfl))

/-- A condition is raised but in PASS (R118). -/
theorem raiseFeeder_eq (f : FeederNo) (c : Condition) (s : State) :
    raiseFeeder f c s =
      { s with sources := if s.decoder.mode = .pass then s.sources else s.sources.raiseFeeder f c } := by
  unfold raiseFeeder
  split <;> rfl
end

/-- Settles O46: `foldl_revokeOne` for the entries and `offerHeld_revocation` for the updates. -/
theorem feederFallRevokesEveryGrant : Obligations.FeederFallRevokesEveryGrant := by
  unfold Obligations.FeederFallRevokesEveryGrant
  intro f s low x due selfs told condition revoked offered
  refine ⟨exec_feederOkFall_reset, exec_feederOkFall_low, fun hs hl ht => ?_, fun hs hl ht hn hg => ?_⟩
  · rw [exec_feederOkFall hs hl]
    have hfalls : lineFalls f (s.setLine f false) = s.setLine f false := if_pos ht
    rw [hfalls]
    rfl
  · have hfalls : lineFalls f (s.setLine f false) = tripFeeder f (s.setLine f false) := if_neg ht
    have hoffered : (fun u b => offerHeld b .revocation u) = offered := by
      funext u b
      exact offerHeld_revocation b u
    have hgrants : ((s.setLine f false).feeder f).grants = x.grants := rfl
    have hfold := foldl_revokeOne (f := f) (s := s.setLine f false) hn hg
    rw [exec_feederOkFall hs hl, hfalls]
    unfold tripFeeder
    simp only [hgrants, hoffered, raiseFeeder_eq]
    rw [hfold]
    rfl

/-! ## The return to ACTIVE (R117-R119) -/

theorem frontWait_eq (x : Feeder) (now : Time) :
    x.frontWait now = match x.queue with | [] => 0 | (_, joined) :: _ => (now - joined).toNat := by
  unfold Feeder.frontWait
  cases x.queue <;> rfl

/-- Settles O47: `becomeActive` and `startRestore` by the mode and the restore delay. -/
theorem feederRestores : Obligations.FeederRestores := by
  unfold Obligations.FeederRestores
  intro f s high x restored active
  have hactive (p : Pins) : becomeActive f { s with pins := p } = active p := by
    have hcondition : x.restored s.clock.time = restored :=
      congrArg
        (fun wait => (⟨.restored, s.clock.time, .counts x.queue.length wait, s.clock.time - x.trippedSince⟩ : Condition))
        (frontWait_eq x s.clock.time)
    unfold becomeActive
    simp only [raiseFeeder_eq]
    show act f { s with
      pins := p
      feeders := s.feeders.set f { x with state := .active, timer := .stopped }
      sources := if s.decoder.mode = .pass then s.sources else s.sources.raiseFeeder f (x.restored s.clock.time)
      status := { s.status with wanted := true } } = _
    rw [hcondition]
  refine ⟨exec_feederOkRise_reset, exec_feederOkRise_high, fun hs hl => ⟨fun ht => ?_, fun ht hm hd => ?_, fun ht hm => ?_⟩,
    fun n hs hm hx ht => ?_, fun hs h => ?_⟩
  · have hrises : lineRises f (s.setLine f true) = s.setLine f true := if_neg ht
    rw [exec_feederOkRise hs hl, hrises]
    rfl
  · have hrises : lineRises f (s.setLine f true) = startRestore f (s.setLine f true) :=
      (if_pos ht).trans (if_neg fun h => h.elim hm (Nat.ne_of_gt hd))
    rw [exec_feederOkRise hs hl, hrises]
    rfl
  · have hrises : lineRises f (s.setLine f true) = becomeActive f (s.setLine f true) := (if_pos ht).trans (if_pos hm)
    rw [exec_feederOkRise hs hl, hrises]
    exact congrArg (fun u => Host.Outcome.next (settle u)) (hactive high)
  · refine (event_occurs hs ?_).trans (congrArg (fun u => Host.Outcome.next (settle u)) (hactive s.pins))
    simp only [hm]
    have hx' : (s.feeder f).state = .restoring := hx
    have ht' : (s.feeder f).timer = .running 0 n := ht
    rw [hx', ht']
    rfl
  · refine event_idles hs ?_
    rw [Bool.and_eq_false_iff, Bool.and_eq_false_iff]
    rcases h with h | h | h
    · exact .inl (.inl (beq_eq_false_iff_ne.2 h))
    · exact .inl (.inr (beq_eq_false_iff_ne.2 h))
    · exact .inr (Bool.eq_false_iff.2 fun hd => (not_exists.2 h) ((due_iff _).1 hd))

end Sys2Proof.Machine

/-! PROOFS. O51: what the end of a step touches and presents (R152, R160, R195; log 14, log 32). -/

namespace Sys2Proof.Machine

/-! ## What the end of a step touches -/

theorem noticeSettle_eq (s : State) :
    noticeSettle s =
      { s with bays := (noticeSettle s).bays, sources := (noticeSettle s).sources, ring := (noticeSettle s).ring } := by
  unfold noticeSettle
  cases noticeReady s with
  | none => rfl
  | some x => cases x <;> rfl

theorem settle_eq (s : State) :
    settle s =
      { s with
        bays := (settle s).bays, sources := (settle s).sources, ring := (settle s).ring, status := (settle s).status } := by
  have hstatus : settle s = { noticeSettle s with status := (settle s).status } := statusSettle_eq (noticeSettle s)
  have hkept : (settle s).bays = (noticeSettle s).bays ∧ (settle s).sources = (noticeSettle s).sources
      ∧ (settle s).ring = (noticeSettle s).ring := by
    rw [hstatus]
    exact ⟨rfl, rfl, rfl⟩
  obtain ⟨hbays, hsources, hring⟩ := hkept
  rw [hbays, hsources, hring]
  exact hstatus.trans (congrArg (fun n : State => { n with status := (settle s).status }) (noticeSettle_eq s))

theorem settle_of_claim {s : State} {x : Source} (h : noticeReady s = some x) :
    (settle s).bays = (clearOrder s x).bays ∧ (settle s).sources = s.sources.clear x ∧ (settle s).ring = (claim s x).ring := by
  have hclaim : noticeSettle s = claim s x := by simp only [noticeSettle, h]
  unfold settle
  rw [statusSettle_eq, hclaim]
  exact ⟨rfl, rfl, rfl⟩

/-- The end of a step changes no entry but for a claimed order (R85, R152). -/
theorem settle_bay (s : State) (b : BayNo) :
    (settle s).bay b = s.bay b
      ∨ (settle s).bay b = { s.bay b with defrost := { (s.bay b).defrost with pending := none } } := by
  cases h : noticeReady s with
  | none =>
    rw [settle_eq_of_not_ready h]
    exact .inl rfl
  | some x =>
    have hbay : (settle s).bay b = (clearOrder s x).bay b := by
      unfold State.bay
      rw [(settle_of_claim h).1]
    rw [hbay]
    exact clearOrder_bay s x b

theorem settle_ring_indices (s : State) :
    (settle s).ring.producer = s.ring.producer ∧ (settle s).ring.consumer = s.ring.consumer := by
  cases h : noticeReady s with
  | none =>
    rw [settle_eq_of_not_ready h]
    exact ⟨rfl, rfl⟩
  | some x =>
    rw [(settle_of_claim h).2.2]
    exact ⟨rfl, rfl⟩

/-- Where R160 allows no claim. -/
theorem noticeReady_eq_none {s : State}
    (h : s.decoder.mode = .pass ∨ s.ring.inFlight ≠ none ∨ (s.ring.producer - s.ring.consumer).toNat = 255) :
    noticeReady s = none := by
  refine if_neg ?_
  rw [Bool.not_eq_true, Bool.and_eq_false_iff, Bool.and_eq_false_iff]
  rcases h with h | h | h
  · exact .inl (.inl (bne_eq_false_iff_eq.2 h))
  · exact .inl (.inr (Option.isNone_eq_false_iff.2 (Option.isSome_iff_ne_none.2 h)))
  · exact .inr (bne_eq_false_iff_eq.2 h)

/-! ## What the Status Writer presents (R195) -/

section
variable {s : State}

theorem statusSettle_under (h : s.status.presented ≠ none) : statusSettle s = beginUnderBurst s :=
  if_pos (Option.isSome_iff_ne_none.2 h)

theorem statusSettle_free (h : s.status.presented = none) :
    statusSettle s =
      match s.status.rewrite with
      | some n => if s.status.resultPending then presentResult s else presentBlock s n
      | none => if s.status.wanted then beginRewrite s else if s.status.resultPending then presentResult s else s := by
  unfold statusSettle
  rw [h]
  rfl

theorem statusSettle_rewriting {n : Nat} (h : s.status.presented = none) (hr : s.status.rewrite = some n) :
    statusSettle s = if s.status.resultPending then presentResult s else presentBlock s n := by
  rw [statusSettle_free h, hr]

theorem statusSettle_resting (h : s.status.presented = none) (hr : s.status.rewrite = none) :
    statusSettle s =
      if s.status.wanted then beginRewrite s else if s.status.resultPending then presentResult s else s := by
  rw [statusSettle_free h, hr]

/-- The next burst of the rewrite in progress. -/
theorem presentBlock_rewriting {n : Nat} (hr : s.status.rewrite = some n) :
    presentBlock s n =
      { s with
        status :=
          { s.status with
            presented := some (.block n (statusBurst s n))
            causeShown := if n = 1 then causeAny s else s.status.causeShown } } := by
  unfold presentBlock
  rw [← hr]
end

/-- Settles O51: `settle_eq`, and `statusSettle` case by case. -/
theorem stepEndClaimsAndPresents : Obligations.StepEndClaimsAndPresents := by
  unfold Obligations.StepEndClaimsAndPresents
  refine ⟨fun s => ⟨settle_eq s, settle_bay s, (settle_ring_indices s).1, (settle_ring_indices s).2,
    fun h => settle_eq_of_not_ready (noticeReady_eq_none h)⟩, fun s hn => ?_⟩
  have hsettle : settle s = statusSettle s := congrArg statusSettle hn
  rw [hsettle]
  refine ⟨fun hp hr hw => ?_, fun hp h => ?_, fun hp => ⟨fun n hr hpend => ?_, fun n hr hpend => ?_, fun hr hw => ?_,
    fun hr hw hpend => ?_, fun hr hw hpend => ?_⟩⟩
  · have hbegins : (s.status.rewrite.isNone && s.status.wanted) = true := by
      rw [hr, hw]
      rfl
    exact (statusSettle_under hp).trans (if_pos hbegins)
  · have hno : ¬ (s.status.rewrite.isNone && s.status.wanted) = true := by
      rw [Bool.not_eq_true, Bool.and_eq_false_iff]
      exact h.imp_left fun h => Option.isNone_eq_false_iff.2 (Option.isSome_iff_ne_none.2 h)
    exact (statusSettle_under hp).trans (if_neg hno)
  · exact (statusSettle_rewriting hp hr).trans (if_pos hpend)
  · rw [statusSettle_rewriting hp hr, if_neg (by rw [hpend]; decide), presentBlock_rewriting hr]
    rfl
  · exact ⟨_, (statusSettle_resting hp hr).trans (if_pos hw), rfl⟩
  · exact (statusSettle_resting hp hr).trans ((if_neg (by rw [hw]; decide)).trans (if_pos hpend))
  · exact (statusSettle_resting hp hr).trans ((if_neg (by rw [hw]; decide)).trans (if_neg (by rw [hpend]; decide)))

end Sys2Proof.Machine

/-! PROOFS. O50: the source a claim takes and the entry it composes (R152, R154, R156, R160, R161). -/

namespace Sys2Proof.Machine

/-! ## The search for a source (R159-R161) -/

/-- Place `m` of a list searched from place `i` holds no pending, unblocked source. -/
def PassedOver (r : Ring) (mk : Nat → Source) (i : Nat) (l : List Bool) (m : Nat) : Prop :=
  ∀ p, l[m]? = some p → p = false ∨ r.blocked (mk (i + m)) = true

theorem PassedOver.head {r : Ring} {mk : Nat → Source} {i : Nat} {p : Bool} {l : List Bool}
    (h : PassedOver r mk i (p :: l) 0) : (p && !r.blocked (mk i)) = false := by
  rw [Bool.and_eq_false_iff, Bool.not_eq_false']
  exact h p rfl

theorem PassedOver.tail {r : Ring} {mk : Nat → Source} {i m : Nat} {p : Bool} {l : List Bool}
    (h : PassedOver r mk i (p :: l) (m + 1)) : PassedOver r mk (i + 1) l m := by
  intro x hx
  rw [Nat.add_right_comm]
  exact h x hx

theorem eligibleFrom_none {r : Ring} {mk : Nat → Source} {l : List Bool} :
    ∀ {i : Nat}, (∀ m, PassedOver r mk i l m) → eligibleFrom r mk i l = none := by
  induction l with
  | nil => exact fun _ => rfl
  | cons p l ih =>
    intro i h
    rw [eligibleFrom, (h 0).head]
    exact ih fun m => (h (m + 1)).tail

theorem eligibleFrom_first {r : Ring} {mk : Nat → Source} {l : List Bool} :
    ∀ {i n : Nat}, l[n]? = some true → r.blocked (mk (i + n)) = false → (∀ m < n, PassedOver r mk i l m) →
      eligibleFrom r mk i l = some (mk (i + n)) := by
  induction l with
  | nil => exact fun h => nomatch h
  | cons p l ih =>
    intro i n hn hb hlow
    cases n with
    | zero =>
      obtain rfl : p = true := Option.some.inj hn
      rw [eligibleFrom, show r.blocked (mk i) = false from hb]
      rfl
    | succ n =>
      rw [eligibleFrom, (hlow 0 n.succ_pos).head]
      rw [← Nat.add_assoc, Nat.add_right_comm] at hb ⊢
      exact ih hn hb fun m hm => (hlow (m + 1) (Nat.succ_lt_succ hm)).tail

/-! ## The search of a table -/

section
variable {α : Type} {n : Nat} [NeZero n] {r : Ring} {v : Vector α n} {pending : α → Bool} {source : Fin n → Source}

/-- Place `g` of a table holds no pending, unblocked source. -/
def PlacePassed (r : Ring) (v : Vector α n) (pending : α → Bool) (source : Fin n → Source) (g : Fin n) : Prop :=
  pending v[g] = false ∨ r.blocked (source g) = true

omit [NeZero n] in
theorem place_getElem? (v : Vector α n) (pending : α → Bool) (g : Fin n) :
    (v.toList.map pending)[g.val]? = some (pending v[g]) := by
  rw [List.getElem?_map, Vector.getElem?_toList, Vector.getElem?_eq_getElem g.isLt]
  rfl

omit [NeZero n] in
/-- What stands at a place of the table's list. -/
theorem place_of_getElem? {m : Nat} {p : Bool} (h : (v.toList.map pending)[m]? = some p) :
    ∃ g : Fin n, g.val = m ∧ p = pending v[g] := by
  have hm : m < n := by
    have := (List.getElem?_eq_some_iff.1 h).1
    simpa using this
  exact ⟨⟨m, hm⟩, rfl, Option.some.inj (h.symm.trans (place_getElem? v pending ⟨m, hm⟩))⟩

theorem ofNat_val (g : Fin n) : Fin.ofNat n g.val = g := Fin.ext (Nat.mod_eq_of_lt g.isLt)

theorem passedOver_drop {k m : Nat} (h : ∀ g : Fin n, g.val = k + m → PlacePassed r v pending source g) :
    PassedOver r (fun i => source (Fin.ofNat n i)) k ((v.toList.map pending).drop k) m := by
  intro p hp
  rw [List.getElem?_drop] at hp
  obtain ⟨g, hg, rfl⟩ := place_of_getElem? hp
  rw [← hg]
  show _ ∨ r.blocked (source (Fin.ofNat n g.val)) = true
  rw [ofNat_val]
  exact h g hg

theorem passedOver_take {k m : Nat} (h : ∀ g : Fin n, g.val = m → g.val < k → PlacePassed r v pending source g) :
    PassedOver r (fun i => source (Fin.ofNat n i)) 0 ((v.toList.map pending).take k) m := by
  intro p hp
  rw [List.getElem?_take] at hp
  split_ifs at hp with hk
  obtain ⟨g, hg, rfl⟩ := place_of_getElem? hp
  rw [Nat.zero_add, ← hg]
  show _ ∨ r.blocked (source (Fin.ofNat n g.val)) = true
  rw [ofNat_val]
  exact h g hg (hg ▸ hk)

theorem search_from {k : Nat} {g : Fin n} (hk : k ≤ g.val) (hp : pending v[g] = true) (hb : r.blocked (source g) = false)
    (h : ∀ j : Fin n, k ≤ j.val → j < g → PlacePassed r v pending source j) :
    eligibleFrom r (fun i => source (Fin.ofNat n i)) k ((v.toList.map pending).drop k) = some (source g) := by
  obtain ⟨m, hm⟩ := Nat.exists_eq_add_of_le hk
  have hplace : source (Fin.ofNat n (k + m)) = source g := by rw [← hm, ofNat_val]
  have hfirst := eligibleFrom_first (r := r) (mk := fun i => source (Fin.ofNat n i)) (i := k) (n := m)
    (l := (v.toList.map pending).drop k) (by rw [List.getElem?_drop, ← hm, place_getElem?, hp])
    (hplace ▸ hb) fun m' hm' => passedOver_drop fun j hj => h j (by omega) (Fin.lt_def.2 (by omega))
  exact hfirst.trans (congrArg some hplace)

theorem search_from_none {k : Nat} (h : ∀ j : Fin n, k ≤ j.val → PlacePassed r v pending source j) :
    eligibleFrom r (fun i => source (Fin.ofNat n i)) k ((v.toList.map pending).drop k) = none :=
  eligibleFrom_none fun _ => passedOver_drop fun j hj => h j (by omega)

theorem search_below {k : Nat} {g : Fin n} (hk : g.val < k) (hp : pending v[g] = true) (hb : r.blocked (source g) = false)
    (h : ∀ j : Fin n, j < g → PlacePassed r v pending source j) :
    eligibleFrom r (fun i => source (Fin.ofNat n i)) 0 ((v.toList.map pending).take k) = some (source g) := by
  have hplace : source (Fin.ofNat n (0 + g.val)) = source g := by rw [Nat.zero_add, ofNat_val]
  have hfirst := eligibleFrom_first (r := r) (mk := fun i => source (Fin.ofNat n i)) (i := 0) (n := g.val)
    (l := (v.toList.map pending).take k) (by rw [List.getElem?_take_of_lt hk, place_getElem?, hp])
    (hplace ▸ hb) fun m' hm' => passedOver_take fun j hj _ => h j (Fin.lt_def.2 (by omega))
  exact hfirst.trans (congrArg some hplace)

theorem search_below_none {k : Nat} (h : ∀ j : Fin n, j.val < k → PlacePassed r v pending source j) :
    eligibleFrom r (fun i => source (Fin.ofNat n i)) 0 ((v.toList.map pending).take k) = none :=
  eligibleFrom_none fun _ => passedOver_take fun j _ hj => h j hj
end

/-! ## The order of the kinds (R160) -/

section
variable {q : Sources} {r : Ring}

/-- A feeder source that is not pending, or blocked. -/
def FeederPassed (q : Sources) (r : Ring) (g : FeederNo) : Prop := q.feeders[g] = none ∨ r.blocked (.feeder g) = true

/-- A TAG source that is not pending, or blocked. -/
def TagPassed (q : Sources) (r : Ring) (k : Fin 16) : Prop := q.tags[k] = false ∨ r.blocked (.tag k) = true

/-- An alert source that is not pending, or blocked. -/
def AlertPassed (q : Sources) (r : Ring) (i : Fin 640) : Prop := q.alerts[i] = none ∨ r.blocked (.alert i) = true

theorem FeederPassed.place {g : FeederNo} (h : FeederPassed q r g) : PlacePassed r q.feeders Option.isSome .feeder g :=
  h.imp_left fun h => by rw [h]; rfl

theorem TagPassed.place {k : Fin 16} (h : TagPassed q r k) : PlacePassed r q.tags id .tag k := h

theorem AlertPassed.place {i : Fin 640} (h : AlertPassed q r i) : PlacePassed r q.alerts Option.isSome .alert i :=
  h.imp_left fun h => by rw [h]; rfl

theorem chooseFeeder_lowest {f : FeederNo} {c : Condition} (hc : q.feeders[f] = some c)
    (hb : r.blocked (.feeder f) = false) (h : ∀ g < f, FeederPassed q r g) : chooseFeeder q r = some (.feeder f) :=
  search_from (k := 0) f.val.zero_le (by rw [hc]; rfl) hb fun g _ hg => (h g hg).place

theorem chooseFeeder_none (h : ∀ g, FeederPassed q r g) : chooseFeeder q r = none :=
  search_from_none (k := 0) fun g _ => (h g).place

theorem chooseTag_eq (q : Sources) (r : Ring) :
    chooseTag q r = eligibleFrom r (fun i => .tag (Fin.ofNat 16 i)) 0 ((q.tags.toList.map id).drop 0) := by
  rw [List.map_id]
  rfl

theorem chooseTag_lowest {k : Fin 16} (hk : q.tags[k] = true) (hb : r.blocked (.tag k) = false)
    (h : ∀ j < k, TagPassed q r j) : chooseTag q r = some (.tag k) :=
  (chooseTag_eq q r).trans (search_from (k := 0) k.val.zero_le hk hb fun j _ hj => (h j hj).place)

theorem chooseTag_none (h : ∀ k, TagPassed q r k) : chooseTag q r = none :=
  (chooseTag_eq q r).trans (search_from_none (k := 0) fun k _ => (h k).place)

theorem chooseAlert_eq (q : Sources) (r : Ring) :
    chooseAlert q r =
      (eligibleFrom r (fun i => .alert (Fin.ofNat 640 i)) (r.scan.val + 1)
          ((q.alerts.toList.map Option.isSome).drop (r.scan.val + 1))).or
        (eligibleFrom r (fun i => .alert (Fin.ofNat 640 i)) 0
          ((q.alerts.toList.map Option.isSome).take (r.scan.val + 1))) := rfl

/-- The place the scan meets after `d` others (R161). -/
theorem scan_place (scan j : Fin 640) {d : Nat} (h : j.val = (scan.val + 1 + d) % 640) :
    Fin.ofNat 640 (scan.val + 1 + d) = j := Fin.ext h.symm

theorem chooseAlert_first {i : Fin 640} {c : Condition} {d : Nat} (hc : q.alerts[i] = some c)
    (hb : r.blocked (.alert i) = false) (hd : d < 640) (hi : i.val = (r.scan.val + 1 + d) % 640)
    (h : ∀ d' < d, AlertPassed q r (Fin.ofNat 640 (r.scan.val + 1 + d'))) : chooseAlert q r = some (.alert i) := by
  have hp : (q.alerts[i]).isSome = true := by rw [hc]; rfl
  have hearlier (j : Fin 640) (d' : Nat) (hd' : d' < d) (hj : j.val = (r.scan.val + 1 + d') % 640) :
      PlacePassed r q.alerts Option.isSome .alert j := scan_place r.scan j hj ▸ (h d' hd').place
  rw [chooseAlert_eq]
  by_cases hround : r.scan.val < i.val
  · rw [search_from (source := .alert) (k := r.scan.val + 1) (Nat.succ_le_of_lt hround) hp hb fun j hj hji =>
      hearlier j (j.val - (r.scan.val + 1)) (by omega) (by omega)]
    rfl
  · rw [search_from_none (source := .alert) (k := r.scan.val + 1) fun j hj => hearlier j (j.val - (r.scan.val + 1)) (by omega) (by omega),
      search_below (source := .alert) (by omega) hp hb fun j hji =>
        hearlier j (j.val + 640 - (r.scan.val + 1)) (by omega) (by omega)]
    rfl

theorem chooseAlert_none (h : ∀ i, AlertPassed q r i) : chooseAlert q r = none := by
  rw [chooseAlert_eq, search_from_none (source := .alert) fun j _ => (h j).place,
    search_below_none (source := .alert) fun j _ => (h j).place]
  rfl

theorem chooseSource_order {b : BayNo} {t : Time} {rest : List (BayNo × Time)} (h : q.orders = (b, t) :: rest) :
    chooseSource q r = some (.order b) := by
  unfold chooseSource
  rw [h]

theorem chooseSource_of_no_order (h : q.orders = []) :
    chooseSource q r = ((chooseFeeder q r).or (chooseTag q r)).or (chooseAlert q r) := by
  unfold chooseSource
  rw [h]
end

/-! ## The claim (R152, R160) -/

/-- The state lets the Notice Writer claim (R160). -/
theorem noticeReady_of_able {s : State} (hmode : s.decoder.mode ≠ .pass) (hidle : s.ring.inFlight = none)
    (hroom : (s.ring.producer - s.ring.consumer).toNat ≠ 255) : noticeReady s = chooseSource s.sources s.ring := by
  refine if_pos ?_
  rw [Bool.and_eq_true, Bool.and_eq_true]
  exact ⟨⟨bne_iff_ne.2 hmode, Option.isNone_iff_eq_none.2 hidle⟩, bne_iff_ne.2 hroom⟩

/-- The ring after a claim. -/
theorem settle_ring_of_claim {s : State} {x : Source} {words : List Word} (h : noticeReady s = some x)
    (hw : entryWords s x = words) :
    (settle s).ring =
      { s.ring with
        shadow := s.ring.shadow.set s.ring.producer.toNat (some x) s.ring.producer.isLt
        scan := s.ring.scanAfter x
        inFlight := some words } :=
  (settle_of_claim h).2.2.trans (hw ▸ rfl)

theorem entryWords_order {s : State} {b : BayNo} {t : Time} {rest : List (BayNo × Time)} {o : PendingOrder}
    (h : s.sources.orders = (b, t) :: rest) (ho : (s.bay b).defrost.pending = some o) :
    entryWords s (.order b) =
      [(1 : BitVec 4) ++ (0 : BitVec 4) ++ (if o.kind = .start then (1 : BitVec 8) else 2) ++ BitVec.ofNat 8 b.val
          ++ (0 : BitVec 8),
        t, (Detail.order (s.bay b).defrost.orderNumber o.feeder).word, ((s.bay b).radio.getD 0).setWidth 32] := by
  have htime : ((s.sources.orders.find? fun e => e.1 == b).map Prod.snd).getD 0 = t := by
    rw [h, List.find?_cons_of_pos (p := fun e : BayNo × Time => e.1 == b) (beq_self_eq_true b)]
    rfl
  have hkind : o.kind.number = if o.kind = .start then (1 : BitVec 8) else 2 := by cases o.kind <;> rfl
  rw [← hkind]
  show orderEntry b (s.bay b) (((s.sources.orders.find? fun e => e.1 == b).map Prod.snd).getD 0) = _
  rw [htime]
  unfold orderEntry
  rw [ho]
  rfl

theorem entryWords_feeder {s : State} {f : FeederNo} {c : Condition} (h : s.sources.feeders[f] = some c) :
    entryWords s (.feeder f) = conditionEntry 3 0 (BitVec.ofNat 8 f.val) c := by
  simp only [entryWords, h]

theorem entryWords_tag {s : State} {k : Fin 16} {u : UnknownEntry} (h : s.link.unknown[k] = some u) :
    entryWords s (.tag k) = tagEntryWords k (some u) := congrArg (tagEntryWords k) h

theorem entryWords_alert {s : State} {i : Fin 640} {c : Condition} (h : s.sources.alerts[i] = some c) :
    entryWords s (.alert i) = conditionEntry 2 (slotKind i) (BitVec.ofNat 8 (slotBay i).val) c := by
  simp only [entryWords, h]

/-- A count in a detail word stops at 65535 (R154). -/
theorem toNat_count (x : Nat) : (BitVec.ofNat 16 (min x 65535)).toNat = if x ≤ 65535 then x else 65535 := by
  rw [BitVec.toNat_ofNat, Nat.mod_eq_of_lt (by omega), Nat.min_def]

theorem detail_counts (x y : Nat) :
    ((Detail.counts x y).word.extractLsb' 16 16).toNat = (if x ≤ 65535 then x else 65535)
      ∧ ((Detail.counts x y).word.extractLsb' 0 16).toNat = if y ≤ 65535 then y else 65535 := by
  obtain ⟨hx, hy⟩ := halves (BitVec.ofNat 16 (min x 65535)) (BitVec.ofNat 16 (min y 65535)) rfl
  exact ⟨(congrArg BitVec.toNat hx).trans (toNat_count x), (congrArg BitVec.toNat hy).trans (toNat_count y)⟩

theorem Ring.not_blocked {r : Ring} {x : Source} (h : ¬ ∃ i : Fin 256, r.shadow[i] = some x) : r.blocked x = false :=
  Bool.eq_false_iff.2 fun hb => h ((r.blocked_iff x).1 hb)

/-- Settles O50: each kind's search by `search_from` and its companions, and the claim by `settle_of_claim`. -/
theorem claimFollowsItsOrder : Obligations.ClaimFollowsItsOrder := by
  unfold Obligations.ClaimFollowsItsOrder
  refine ⟨⟨⟨rfl, rfl, rfl, rfl, rfl⟩, ⟨rfl, rfl, rfl, rfl, rfl, rfl⟩, ⟨rfl, rfl, rfl⟩, ⟨rfl, rfl, rfl, rfl⟩, ⟨rfl, rfl⟩,
    fun _ _ => rfl, fun _ => rfl, fun _ _ => rfl, detail_counts⟩, ?_⟩
  intro s hmode hidle hroom blocked p ready claimed
  have hready := noticeReady_of_able hmode hidle hroom
  have hblocked (x : Source) (h : blocked x) : s.ring.blocked x = true := (s.ring.blocked_iff x).2 h
  refine ⟨fun b t rest o horders hpending => ?_, fun f c horders hc hb hlow => ?_,
    fun k u horders hfeeders hk hb hlow hu => ?_, fun horders hfeeders htags => ?_⟩
  · have hclaim := hready.trans (chooseSource_order horders)
    obtain ⟨hbays, hsources, -⟩ := settle_of_claim hclaim
    have hbay : (settle s).bay b = (clearOrder s (.order b)).bay b := by
      unfold State.bay
      rw [hbays]
    refine ⟨settle_ring_of_claim hclaim ((entryWords_order horders hpending).trans ?_), hsources, ?_⟩
    · cases o.feeder <;> rfl
    · rw [hbay]
      exact congrArg (fun e => e.defrost.pending) (setBay_bay_self s b _)
  · have hclaim : noticeReady s = some (.feeder f) := by
      rw [hready, chooseSource_of_no_order horders,
        chooseFeeder_lowest hc (Ring.not_blocked hb) fun g hg => (hlow g hg).imp_right (hblocked _)]
      rfl
    exact ⟨settle_ring_of_claim hclaim (entryWords_feeder hc), (settle_of_claim hclaim).2.1⟩
  · have hclaim : noticeReady s = some (.tag k) := by
      rw [hready, chooseSource_of_no_order horders, chooseFeeder_none fun g => (hfeeders g).imp_right (hblocked _),
        chooseTag_lowest hk (Ring.not_blocked hb) fun j hj => (hlow j hj).imp_right (hblocked _)]
      rfl
    exact ⟨settle_ring_of_claim hclaim (entryWords_tag hu), (settle_of_claim hclaim).2.1⟩
  · have hchosen : noticeReady s = chooseAlert s.sources s.ring := by
      rw [hready, chooseSource_of_no_order horders, chooseFeeder_none fun g => (hfeeders g).imp_right (hblocked _),
        chooseTag_none fun j => (htags j).imp_right (hblocked _)]
      rfl
    have hpassed (i : Fin 640) (h : ¬ ready i) : AlertPassed s.sources s.ring i :=
      (not_and_or.1 h).imp Decidable.not_not.1 fun h => hblocked _ (Classical.not_not.1 h)
    refine ⟨fun i d c hi hc hd hplace hearlier => ?_, fun h => ?_⟩
    · have hclaim := hchosen.trans
        (chooseAlert_first hc (Ring.not_blocked hi.2) hd hplace fun d' hd' => hpassed _ (hearlier d' hd'))
      exact ⟨settle_ring_of_claim hclaim (entryWords_alert hc), (settle_of_claim hclaim).2.1⟩
    · exact settle_eq_of_not_ready (hchosen.trans (chooseAlert_none fun i => hpassed i (h i)))

end Sys2Proof.Machine

/-! PROOFS. O48, O49: the yard tick, the microsecond timers and the idle period (R15, R175, R182, R184, R193; log 8, log 9). -/

namespace Sys2Proof.Machine

/-! ## Periods (R184, R193) -/

theorem lose_eq (n : Nat) (e : DelayedEntry) :
    e.lose n =
      match e.state with
      | .ready data left => ⟨e.key, .ready data (left - n)⟩
      | .queued => e := by
  obtain ⟨k, _ | _⟩ := e <;> rfl

theorem passPeriods_eq (n : Nat) (s : State) : passPeriods n s = afterPeriods n s := by
  have htable : s.access.table.map (DelayedEntry.lose n) = (afterPeriods n s).access.table :=
    List.map_congr_left fun e _ => lose_eq n e
  unfold passPeriods
  rw [htable]
  rfl

/-! ## The yard tick (R193) -/

/-- A timer at a yard tick, as the manual says it. -/
theorem Timer.tick_eq (t : Timer) : t.tick = match t with | .running left n => .running (left - 1) n | t => t := by
  cases t <;> rfl

theorem counterRewrite_eq (s : State) :
    counterRewrite s =
      if s.status.counterChanged then { s with status := { s.status with counterChanged := false, wanted := true } }
      else s := rfl

theorem tickTimers_status (s : State) : (tickTimers s).status = s.status := by
  unfold tickTimers
  split_ifs <;> rfl

theorem execYardTick_live {s : State} (h : Live s) : exec .yardTick s = .next (settle (yardTick s)) :=
  event_occurs (s := s) h rfl

theorem step_idle {s : State} (h : Live s) (hp : s.pending = []) : step s = .next (settle (refclkPeriod s)) :=
  (step_of_empty hp).trans (event_occurs h rfl)

/-- Settles O49: `tickTimers` and `counterRewrite` after the rest of the periods, and `step_idle`. -/
theorem yardTickCountsASecond : Obligations.YardTickCountsASecond := by
  unfold Obligations.YardTickCountsASecond
  refine ⟨fun s h => ?_, fun s hp => ⟨fun hr => ?_, fun h hb => ?_, fun h hb => ?_⟩⟩
  · intro u ticked v
    have hticked : Timer.tick = ticked := funext Timer.tick_eq
    have hu : tickClock (passPeriods (secondPeriods - s.clock.base) s) = u := by
      rw [passPeriods_eq]
      rfl
    have hv : tickTimers u = v := by
      show _ = if s.decoder.mode = .run then _ else u
      rw [← hticked]
      rfl
    rw [execYardTick_live h]
    unfold yardTick
    rw [hu, counterRewrite_eq, tickTimers_status, hv]
    rfl
  · rw [step_of_empty hp, event_low hr]
  · rw [step_idle h hp, show refclkPeriod s = passPeriods 1 s from if_pos hb, passPeriods_eq]
    rfl
  · rw [step_idle h hp, execYardTick_live h, show refclkPeriod s = yardTick s from if_neg (Nat.not_lt.2 hb)]

/-! ## A yard tick among the periods (R193; log 9) -/

theorem settle_access (s : State) : (settle s).access = s.access := by
  unfold settle
  rw [statusSettle_eq]
  exact noticeSettle_access s

theorem settle_haltDue (s : State) : (settle s).haltDue = (noticeSettle s).haltDue := by
  unfold settle
  rw [statusSettle_eq]
  rfl

theorem yardTick_pins (s : State) : (yardTick s).pins = s.pins := by
  unfold yardTick counterRewrite tickTimers
  split_ifs <;> rfl

/-- The part stays live over a yard tick: no HALT becomes due. -/
theorem yardTick_live {s : State} (h : Live s) : Live (settle (yardTick s)) := by
  obtain ⟨hpins, hhalt⟩ := h
  refine ⟨?_, ?_⟩
  · rw [settle_pins, yardTick_pins, hpins]
  · rw [settle_haltDue]
    exact haltDue_noticeSettle hhalt (yardTick_still s).noHalt (yardTick_grows s).busy

theorem tick_access (s : State) :
    (settle (yardTick s)).access = (passPeriods (secondPeriods - s.clock.base) s).access :=
  (settle_access _).trans (yardTick_access s)

theorem elapse_eq (n : Nat) (s : State) :
    elapse n s =
      passPeriods ((s.clock.base + n) % secondPeriods - (passTicks ((s.clock.base + n) / secondPeriods) s).clock.base)
        (passTicks ((s.clock.base + n) / secondPeriods) s) := rfl

/-- Where a yard tick falls within the periods, it occurs first and the rest of them pass. -/
theorem elapse_over_tick {n : Nat} {s : State} (hb : s.clock.base < secondPeriods) (hn : secondPeriods ≤ s.clock.base + n) :
    elapse n s = elapse (n - (secondPeriods - s.clock.base)) (settle (yardTick s)) := by
  have hpos : 0 < secondPeriods := by decide
  have hbase : (settle (yardTick s)).clock.base = 0 := by rw [settle_clock, yardTick_base]
  have hrest : s.clock.base + n = 0 + (n - (secondPeriods - s.clock.base)) + secondPeriods := by omega
  rw [elapse_eq, elapse_eq, hbase, hrest, Nat.add_div_right _ hpos, Nat.add_mod_right]
  rfl

/-! ## The reclaim timer (R175) -/

theorem reclaimLeft_of_ready {s : State} {place : Fin 4} {k : ReadKey} {data : List Word} {left : Nat}
    (h : s.access.table[place.val]? = some ⟨k, .ready data left⟩) : s.reclaimLeft place = some (k, left) := by
  simp only [State.reclaimLeft, h]

theorem reclaimLeft_of_none {s : State} {place : Fin 4}
    (h : ∀ k data left, s.access.table[place.val]? ≠ some ⟨k, .ready data left⟩) : s.reclaimLeft place = none := by
  unfold State.reclaimLeft
  split
  · rename_i k data left hentry
    exact absurd hentry (h k data left)
  · rfl

theorem execReclaimExpiry_ready {s : State} {place : Fin 4} {k : ReadKey} {left : Nat} (h : Live s)
    (hleft : s.reclaimLeft place = some (k, left)) :
    exec (.reclaimExpiry place) s = .next (settle (reclaim k (elapse left s))) := by
  refine (event_occurs (s := s) h (by rw [hleft]; rfl)).trans ?_
  simp only [hleft]

/-- The entry at a place after periods that leave it READY. -/
theorem ready_passPeriods {s : State} {place : Fin 4} {k : ReadKey} {data : List Word} {left : Nat} (n : Nat)
    (h : s.access.table[place.val]? = some ⟨k, .ready data left⟩) :
    (passPeriods n s).access.table[place.val]? = some ⟨k, .ready data (left - n)⟩ := by
  simp only [passPeriods, List.getElem?_map, h]
  rfl

/-! ## The hold timer (R182) -/

theorem execLockHoldExpiry_held {s : State} {l : BayLock} (h : Live s) (hl : s.access.lock = some l) :
    exec .lockHoldExpiry s = .next (settle (breakLock (elapse l.left s))) := by
  have hleft : s.holdLeft = l.left := by
    unfold State.holdLeft
    rw [hl]
    rfl
  rw [← hleft]
  exact event_occurs (s := s) h (by rw [hl]; rfl)

theorem lock_passPeriods {s : State} {l : BayLock} (n : Nat) (hl : s.access.lock = some l) :
    (passPeriods n s).access.lock = some { l with left := l.left - n } := by
  simp only [passPeriods, hl]
  rfl

/-- Settles O48: `elapse_of_short` where no yard tick falls within the periods, `elapse_over_tick` where one does. -/
theorem microsecondTimersExpire : Obligations.MicrosecondTimersExpire := by
  unfold Obligations.MicrosecondTimersExpire
  intro place s h hb
  refine ⟨fun k data left hentry => ⟨fun hshort => ?_, fun hlong u hu => ?_⟩, fun hnone => ?_,
    fun l hl => ⟨fun hshort => ?_, fun hlong u hu => ?_⟩, fun hnone => ?_⟩
  · rw [execReclaimExpiry_ready h (reclaimLeft_of_ready hentry), elapse_of_short hshort, passPeriods_eq]
    rfl
  · obtain rfl : settle (yardTick s) = u := Host.Outcome.next.inj ((execYardTick_live h).symm.trans hu)
    have htick := ready_passPeriods (secondPeriods - s.clock.base) hentry
    rw [← tick_access] at htick
    rw [execReclaimExpiry_ready h (reclaimLeft_of_ready hentry), elapse_over_tick hb hlong,
      execReclaimExpiry_ready (yardTick_live h) (reclaimLeft_of_ready htick)]
  · exact event_idles (s := s) h (by rw [reclaimLeft_of_none hnone]; rfl)
  · rw [execLockHoldExpiry_held h hl, elapse_of_short hshort, passPeriods_eq]
    rfl
  · obtain rfl : settle (yardTick s) = u := Host.Outcome.next.inj ((execYardTick_live h).symm.trans hu)
    have htick := lock_passPeriods (secondPeriods - s.clock.base) hl
    rw [← tick_access] at htick
    rw [execLockHoldExpiry_held h hl, elapse_over_tick hb hlong, execLockHoldExpiry_held (yardTick_live h) htick]
  · exact event_idles (s := s) h (by rw [hnone]; rfl)

end Sys2Proof.Machine
